-- ==== Sys2Proof/Word.lean ====
section
/-! DEFINITION. The one word type of the codec block: the interface byte (R12). -/

namespace Sys2Proof

/-- A data byte of the interface: 8 bits, a value in 0 to 255; bit 0 is the least significant (R12, R13). -/
abbrev Byte := BitVec 8

end Sys2Proof
end

