-- ==== Sys2Proof/Machine/Literals.lean ====
section
/-! DEFINITION. The one table of the source's numeric literals (I17): frame header bytes (R72 to R74) and the
function-code catalog (R77). A corrected literal changes one place. -/

namespace Sys2Proof.Machine

/-- Sysex start marker (R72). -/
abbrev sysexStart : Byte := 0xF0
/-- Sysex end marker (R72). -/
abbrev sysexEnd : Byte := 0xF7
/-- Vendor header byte 1 (R72). -/
abbrev vendor1 : Byte := 0x52
/-- Vendor header byte 2 (R72). -/
abbrev vendor2 : Byte := 0x00
/-- Vendor header byte 3 (R72). -/
abbrev vendor3 : Byte := 0x58
/-- Universal header byte 1 (R73). -/
abbrev universal1 : Byte := 0x7E
/-- Universal header byte 2: exactly 0x00 (R73, R108, D27). -/
abbrev universal2 : Byte := 0x00
/-- Universal function code of general device information (R88). -/
abbrev generalInfoFunc : Byte := 0x06
/-- Sub-function code of the general-information request (R88). -/
abbrev inquirySubfunc : Byte := 0x01

/-- The names of the known vendor function codes (R77). -/
inductive CommandName where
  | sendPatch | requestPatch | sendCurrentPatch | requestCurrentPatch | parameterChange
  | storePatch | requestCurrentProgram | enableParameterChange | disableParameterChange
  deriving DecidableEq, Repr

/-- The function code of a catalog name (R77). -/
def commandCode : CommandName → Byte
  | .sendPatch => 0x08
  | .requestPatch => 0x09
  | .sendCurrentPatch => 0x28
  | .requestCurrentPatch => 0x29
  | .parameterChange => 0x31
  | .storePatch => 0x32
  | .requestCurrentProgram => 0x33
  | .enableParameterChange => 0x50
  | .disableParameterChange => 0x51

/-- The catalog's names in the order of R77. -/
def commandNames : List CommandName :=
  [.sendPatch, .requestPatch, .sendCurrentPatch, .requestCurrentPatch, .parameterChange,
   .storePatch, .requestCurrentProgram, .enableParameterChange, .disableParameterChange]

/-- The catalog name of a function code. A code outside the catalog "is neither illegal nor reserved; it is
simply unnamed" (R78). -/
def commandOf (func : Byte) : Option CommandName :=
  commandNames.find? fun n => commandCode n == func

end Sys2Proof.Machine
end

