-- ==== Sys2Proof/Syntax.lean ====
section
/-! DEFINITION. The request record (R27) and the instruction set: one constructor per row of the opcode table. -/

namespace Sys2Proof

/-- The request the host presents (R27). `len` is the number of bytes of `data`, so it is stored once, as the
length of `data` (`Request.len`). -/
structure Request where
  /-- Operation select, bits 2:0 (R28). -/
  op : BitVec 3
  /-- `func` of BUILD_COMMAND, `low` of COMBINE; ignored by every other operation (R29). -/
  a : Byte
  /-- `high` of COMBINE; ignored by every other operation (R30). -/
  b : Byte
  /-- The request data buffer D[0 .. len) (R31, R48). -/
  data : List Byte
  deriving DecidableEq, Repr

/-- The request field `len` (R27). -/
abbrev Request.len (r : Request) : Nat := r.data.length

/-- The eight values of the operation select (R67). -/
inductive Op where
  | buildCommand | buildUniversalInquiry | classify | unpack | combine | parsePatch | reserved6 | reserved7
  deriving DecidableEq, Repr

/-- The rows of the opcode table. The first eight are the op rows of R67 with the operands R68 gives them; an
operation that ignores `data` but is held to MAX_LEN keeps its length (R68). The next five are the byte sequences
CLASSIFY tells apart (R72 to R75, R88), with the frame's bytes as fields: `rest` is every byte after the fields
named before it, the end marker included. The last nine are the catalog's commands (R77, R98). -/
inductive Instr where
  /-- BUILD_COMMAND (R100). -/
  | buildCommand (func : Byte) (payload : List Byte)
  /-- BUILD_UNIVERSAL_INQUIRY (R104); `len` is read by the capacity check only. -/
  | buildUniversalInquiry (len : Nat)
  /-- CLASSIFY (R106). -/
  | classify (bytes : List Byte)
  /-- UNPACK (R118). -/
  | unpack (stream : List Byte)
  /-- COMBINE (R131); `len` is read by the capacity check only. -/
  | combine (low high : Byte) (len : Nat)
  /-- PARSE_PATCH (R136). -/
  | parsePatch (buffer : List Byte)
  /-- RESERVED_6 (R171). -/
  | reserved6
  /-- RESERVED_7 (R171). -/
  | reserved7
  /-- VENDOR_FRAME: F0 52 00 58 func rest (R72, R107). -/
  | vendorFrame (func : Byte) (rest : List Byte)
  /-- UNIVERSAL_FRAME: F0 7E 00 func subfunc rest (R73, R108). -/
  | universalFrame (func subfunc : Byte) (rest : List Byte)
  /-- UNIVERSAL_INQUIRY: F0 7E 00 06 01 F7 (R74). -/
  | universalInquiry
  /-- GENERAL_INFO: F0 7E 00 06 subfunc rest (R88, R90). -/
  | generalInfo (subfunc : Byte) (rest : List Byte)
  /-- CHANNEL_MESSAGE: status data1 data2 rest, neither sysex header (R75, R112). -/
  | channelMessage (status data1 data2 : Byte) (rest : List Byte)
  /-- CMD_SEND_PATCH, func 0x08 (R79). -/
  | cmdSendPatch (payload : List Byte)
  /-- CMD_REQUEST_PATCH, func 0x09 (R80). -/
  | cmdRequestPatch (payload : List Byte)
  /-- CMD_SEND_CURRENT_PATCH, func 0x28 (R81). -/
  | cmdSendCurrentPatch (payload : List Byte)
  /-- CMD_REQUEST_CURRENT_PATCH, func 0x29 (R82). -/
  | cmdRequestCurrentPatch (payload : List Byte)
  /-- CMD_PARAMETER_CHANGE, func 0x31 (R83). -/
  | cmdParameterChange (payload : List Byte)
  /-- CMD_STORE_PATCH, func 0x32 (R84). -/
  | cmdStorePatch (payload : List Byte)
  /-- CMD_REQUEST_CURRENT_PROGRAM, func 0x33 (R85). -/
  | cmdRequestCurrentProgram (payload : List Byte)
  /-- CMD_ENABLE_PARAMETER_CHANGE, func 0x50 (R86). -/
  | cmdEnableParameterChange (payload : List Byte)
  /-- CMD_DISABLE_PARAMETER_CHANGE, func 0x51 (R87). -/
  | cmdDisableParameterChange (payload : List Byte)
  deriving DecidableEq, Repr

end Sys2Proof
end

