-- ==== Sys2Proof/WellFormed.lean ====
section
/-! DEFINITION. Which terms of `Instr` are the name the decoder gives to a request: a row that a more specific row
of the table also describes is named by the more specific one (log 5). Every term has a meaning in the machine,
well-formed or not. -/

namespace Sys2Proof

open Machine

/-- Five checks:
* a BUILD_COMMAND whose func is in the catalog is that catalog command (R77, R98);
* a CLASSIFY request of three bytes or more is one of the frame rows (R72 to R75);
* a universal frame of func 0x06 is general information (R88);
* a general-information frame that is exactly the inquiry is UNIVERSAL_INQUIRY (R74);
* a channel message matches neither the vendor test (R107) nor the universal test (R108). -/
def wellFormed : Instr → Bool
  | .buildCommand func _ => (commandOf func).isNone
  | .classify bytes => decide (bytes.length < 3)
  | .universalFrame func _ _ => func != generalInfoFunc
  | .generalInfo subfunc rest => !(subfunc == inquirySubfunc && rest == [sysexEnd])
  | .channelMessage status data1 data2 rest =>
      !(status == sysexStart && data1 == vendor1 && data2 == vendor2 && rest.head? == some vendor3
          && decide (2 ≤ rest.length))
      && !(status == sysexStart && data1 == universal1 && data2 == universal2 && decide (2 ≤ rest.length))
  | .buildUniversalInquiry _ => true
  | .unpack _ => true
  | .combine _ _ _ => true
  | .parsePatch _ => true
  | .reserved6 => true
  | .reserved7 => true
  | .vendorFrame _ _ => true
  | .universalInquiry => true
  | .cmdSendPatch _ => true
  | .cmdRequestPatch _ => true
  | .cmdSendCurrentPatch _ => true
  | .cmdRequestCurrentPatch _ => true
  | .cmdParameterChange _ => true
  | .cmdStorePatch _ => true
  | .cmdRequestCurrentProgram _ => true
  | .cmdEnableParameterChange _ => true
  | .cmdDisableParameterChange _ => true

end Sys2Proof
end

