-- ==== Sys2Proof/Decode.lean ====
section
/-! DEFINITION. The decoder of requests and frames (R67 to R78), total on every request; the encoder, written from
the same tables; the pseudo-operations of R98 and R99; and the reading of the opcode table's words. -/

namespace Sys2Proof

open Machine

/-- The operation select (R67). -/
def opOf (op : BitVec 3) : Op :=
  match op.toNat with
  | 0 => .buildCommand
  | 1 => .buildUniversalInquiry
  | 2 => .classify
  | 3 => .unpack
  | 4 => .combine
  | 5 => .parsePatch
  | 6 => .reserved6
  | _ => .reserved7

/-- The value of the operation select (R67). -/
def opBits : Op → BitVec 3
  | .buildCommand => 0
  | .buildUniversalInquiry => 1
  | .classify => 2
  | .unpack => 3
  | .combine => 4
  | .parsePatch => 5
  | .reserved6 => 6
  | .reserved7 => 7

/-- The op row of a request, by the operation select alone (R67), with the operands of R68. -/
def decodeOp (r : Request) : Instr :=
  match opOf r.op with
  | .buildCommand => .buildCommand r.a r.data
  | .buildUniversalInquiry => .buildUniversalInquiry r.len
  | .classify => .classify r.data
  | .unpack => .unpack r.data
  | .combine => .combine r.a r.b r.len
  | .parsePatch => .parsePatch r.data
  | .reserved6 => .reserved6
  | .reserved7 => .reserved7

/-- The row of a catalog command (R77, R98). -/
def commandInstr (n : CommandName) (payload : List Byte) : Instr :=
  match n with
  | .sendPatch => .cmdSendPatch payload
  | .requestPatch => .cmdRequestPatch payload
  | .sendCurrentPatch => .cmdSendCurrentPatch payload
  | .requestCurrentPatch => .cmdRequestCurrentPatch payload
  | .parameterChange => .cmdParameterChange payload
  | .storePatch => .cmdStorePatch payload
  | .requestCurrentProgram => .cmdRequestCurrentProgram payload
  | .enableParameterChange => .cmdEnableParameterChange payload
  | .disableParameterChange => .cmdDisableParameterChange payload

/-- The row of a BUILD_COMMAND request: the catalog's name for func where it has one (R77, R98), else BUILD_COMMAND
itself (R78). -/
def decodeBuild (func : Byte) (payload : List Byte) : Instr :=
  match commandOf func with
  | some n => commandInstr n payload
  | none => .buildCommand func payload

/-- The row of a received byte sequence, most specific first: the vendor header (R72, R107), the universal header
(R73, R108) with func 0x06 (R88) and with the whole inquiry (R74), a channel message (R75), and for fewer bytes than
a channel message has, CLASSIFY itself. -/
def decodeFrame (bytes : List Byte) : Instr :=
  match bytes with
  | d0 :: d1 :: d2 :: d3 :: d4 :: rest =>
    if d0 = sysexStart ∧ d1 = vendor1 ∧ d2 = vendor2 ∧ d3 = vendor3 then .vendorFrame d4 rest
    else if d0 = sysexStart ∧ d1 = universal1 ∧ d2 = universal2 then
      if d3 = generalInfoFunc then
        if d4 = inquirySubfunc ∧ rest = [sysexEnd] then .universalInquiry else .generalInfo d4 rest
      else .universalFrame d3 d4 rest
    else .channelMessage d0 d1 d2 (d3 :: d4 :: rest)
  | d0 :: d1 :: d2 :: rest => .channelMessage d0 d1 d2 rest
  | short => .classify short

/-- The decoder: the most specific row of the opcode table that describes the request. Every request decodes (R69:
"The decoder is total"). -/
def decode (r : Request) : Instr :=
  match opOf r.op with
  | .buildCommand => decodeBuild r.a r.data
  | .buildUniversalInquiry => .buildUniversalInquiry r.len
  | .classify => decodeFrame r.data
  | .unpack => .unpack r.data
  | .combine => .combine r.a r.b r.len
  | .parsePatch => .parsePatch r.data
  | .reserved6 => .reserved6
  | .reserved7 => .reserved7

/-- A BUILD_COMMAND request (R100). -/
def buildRequest (func : Byte) (payload : List Byte) : Request :=
  { op := opBits .buildCommand, a := func, b := 0, data := payload }

/-- A CLASSIFY request (R106). -/
def classifyRequest (bytes : List Byte) : Request :=
  { op := opBits .classify, a := 0, b := 0, data := bytes }

/-- The bytes of a vendor frame: header, func, and every byte after it (R72). -/
def vendorBytes (func : Byte) (rest : List Byte) : List Byte :=
  sysexStart :: vendor1 :: vendor2 :: vendor3 :: func :: rest

/-- The bytes of a universal frame: header, func, subfunc, and every byte after them (R73). -/
def universalBytes (func subfunc : Byte) (rest : List Byte) : List Byte :=
  sysexStart :: universal1 :: universal2 :: func :: subfunc :: rest

/-- The fixed six bytes of the universal inquiry (R74). -/
def inquiryBytes : List Byte :=
  [sysexStart, universal1, universal2, generalInfoFunc, inquirySubfunc, sysexEnd]

/-- The encoder: the request of an instruction, by R67 and R68, with the fields the instruction ignores zero. -/
def encode : Instr → Request
  | .buildCommand func payload => buildRequest func payload
  | .buildUniversalInquiry len =>
      { op := opBits .buildUniversalInquiry, a := 0, b := 0, data := List.replicate len 0 }
  | .classify bytes => classifyRequest bytes
  | .unpack stream => { op := opBits .unpack, a := 0, b := 0, data := stream }
  | .combine low high len => { op := opBits .combine, a := low, b := high, data := List.replicate len 0 }
  | .parsePatch buffer => { op := opBits .parsePatch, a := 0, b := 0, data := buffer }
  | .reserved6 => { op := opBits .reserved6, a := 0, b := 0, data := [] }
  | .reserved7 => { op := opBits .reserved7, a := 0, b := 0, data := [] }
  | .vendorFrame func rest => classifyRequest (vendorBytes func rest)
  | .universalFrame func subfunc rest => classifyRequest (universalBytes func subfunc rest)
  | .universalInquiry => classifyRequest inquiryBytes
  | .generalInfo subfunc rest => classifyRequest (universalBytes generalInfoFunc subfunc rest)
  | .channelMessage status data1 data2 rest => classifyRequest (status :: data1 :: data2 :: rest)
  | .cmdSendPatch payload => buildRequest (commandCode .sendPatch) payload
  | .cmdRequestPatch payload => buildRequest (commandCode .requestPatch) payload
  | .cmdSendCurrentPatch payload => buildRequest (commandCode .sendCurrentPatch) payload
  | .cmdRequestCurrentPatch payload => buildRequest (commandCode .requestCurrentPatch) payload
  | .cmdParameterChange payload => buildRequest (commandCode .parameterChange) payload
  | .cmdStorePatch payload => buildRequest (commandCode .storePatch) payload
  | .cmdRequestCurrentProgram payload => buildRequest (commandCode .requestCurrentProgram) payload
  | .cmdEnableParameterChange payload => buildRequest (commandCode .enableParameterChange) payload
  | .cmdDisableParameterChange payload => buildRequest (commandCode .disableParameterChange) payload

/-- PARAM_CHANGE e, p, v (R99): the four payload bytes are e, p and the two Value14 digits, low first (R52, R83).
`none` where it cannot be expanded: v above 16383, or an e or p that is no byte. An e or p from 128 to 255 expands, and
BUILD_COMMAND rejects it. -/
def paramChange (e p v : Nat) : Option Instr :=
  if e < 256 ∧ p < 256 ∧ v ≤ 16383 then
    some (.cmdParameterChange
      [BitVec.ofNat 8 e, BitVec.ofNat 8 p, BitVec.ofNat 8 (v &&& 0x7F), BitVec.ofNat 8 (v >>> 7)])
  else none

/-- The `n` low-order bytes of a number, most significant first: how the frame rows of the opcode table number
their bits ("byte 0 most significant"). -/
def bigEndianBytes (n w : Nat) : List Byte :=
  match n with
  | 0 => []
  | k + 1 => BitVec.ofNat 8 (w >>> (8 * k)) :: bigEndianBytes k w

/-- A table word's frame bytes with the operand bytes the table gives no bits set to zero: up to the six bytes of
the shortest complete sysex frame, or the three of a channel message (log 6). -/
def padFrame (bytes : List Byte) : List Byte :=
  bytes ++ List.replicate ((if bytes.head? = some sysexStart then 6 else 3) - bytes.length) 0

/-- The request that carries a word of the opcode table (log 6). An op row's word is the op field in bits 2:0, with
a, b and data zero. A vendor-command row's word is the first five bytes of the frame BUILD_COMMAND builds, so its
request is that BUILD_COMMAND with an empty payload. Any other frame row's word is received by CLASSIFY. A row with
no bits at all is the channel-message row. -/
def tableRequest (nbits w : Nat) : Request :=
  if 0 < nbits ∧ nbits ≤ 8 then { op := BitVec.ofNat 3 w, a := 0, b := 0, data := [] }
  else
    match bigEndianBytes (nbits / 8) w with
    | [d0, d1, d2, d3, d4] =>
      if d0 = sysexStart ∧ d1 = vendor1 ∧ d2 = vendor2 ∧ d3 = vendor3 ∧ (commandOf d4).isSome
      then buildRequest d4 []
      else classifyRequest (padFrame [d0, d1, d2, d3, d4])
    | bytes => classifyRequest (padFrame bytes)

/-- The instruction the decoder reads from a word of the opcode table. -/
def decodeTableWord (nbits w : Nat) : Option Instr :=
  some (decode (tableRequest nbits w))

end Sys2Proof
end

