-- ==== Sys2Proof/Config.lean ====
section
/-! DEFINITION. What is fixed when the block is built: the parameter MAX_LEN (R10, R189). -/

namespace Sys2Proof

/-- The build-time parameters. No step changes them (R189). -/
structure Config where
  /-- MAX_LEN, the largest request data length the block accepts; `none` is infinity, no bound (R10, D6). -/
  maxLen : Option Nat
  deriving DecidableEq, Repr

/-- DESIGN CHOICE (log 2): the instance `State.reset` is built with, `MAX_LEN = ∞`: "the source's unbounded
functions" (D6). A statement over all states holds for every value of MAX_LEN. -/
def Config.unbounded : Config := { maxLen := none }

end Sys2Proof
end

