-- ==== Sys2Proof/Machine/State.lean ====
section
/-! DEFINITION. The state of the machine as plain data: the phase, the request latch, the response latch (R23), the
parameter MAX_LEN, and the host's side of the interface; reset; the faults and refusals. -/

namespace Sys2Proof.Machine

/-- The transaction phase (R26). -/
inductive Phase where
  | idle | busy | done
  deriving DecidableEq, Repr

/-- The completion codes of R70. The codes 5, 6 and 7 are never produced (I11) and have no constructor. -/
inductive Status where
  | ok | insufficientData | valueOutOfRange | illegalOp | capacityExceeded
  deriving DecidableEq, Repr

/-- The classification codes of R71. The code 3 is never produced (I11) and has no constructor. -/
inductive Cls where
  | noMatch | vendor | universal
  deriving DecidableEq, Repr

/-- The fields of one valid effect slot (R39). -/
structure Slot where
  enabled : Bool
  /-- `type[e]`, 7 bits (R142, C1). -/
  effectType : BitVec 7
  category : BitVec 4
  param0 : BitVec 13
  param1 : BitVec 13
  param2 : BitVec 13
  param3 : Byte
  param4 : Byte
  param5 : Byte
  param6 : Byte
  param7 : Byte
  param8 : Byte
  dspFull : Bool
  deriving DecidableEq, Repr

/-- The response latch (R33 to R39). `none` is the spec's "no value" (R17, R41, R46; log 1). -/
structure Response where
  /-- `status` (R33). -/
  status : Option Status
  /-- `out[0 .. out_len)`; `out_len` is its length (R34). -/
  out : Option (List Byte)
  cls : Option Cls
  func : Option Byte
  subfuncValid : Option Bool
  subfunc : Option Byte
  chanValid : Option Bool
  msgType : Option (BitVec 4)
  channel : Option (BitVec 4)
  code : Option Byte
  value : Option Byte
  value14 : Option (BitVec 14)
  effectCount : Option (BitVec 3)
  currentEffectIndex : Option (BitVec 3)
  tempo : Option Byte
  /-- `name[0 .. name_len)`; `name_len` is its length (R38). -/
  name : Option (List Byte)
  /-- The seven result slots (R39): entry e is `some` exactly where `slot_valid[e] = 1`. -/
  slots : Option (Vector (Option Slot) 7)
  deriving DecidableEq, Repr

/-- Every response field with no value: how Compute begins (R41) and what reset leaves (R46). -/
def Response.empty : Response :=
  { status := none, out := none, cls := none, func := none, subfuncValid := none, subfunc := none,
    chanValid := none, msgType := none, channel := none, code := none, value := none, value14 := none,
    effectCount := none, currentEffectIndex := none, tempo := none, name := none, slots := none }

/-- The response fields by name, as the host reads them (R33 to R39). -/
inductive RespField where
  | status | outLen | outByte (i : Nat)
  | cls | func | subfuncValid | subfunc
  | chanValid | msgType | channel | code | value
  | value14
  | effectCount | currentEffectIndex | tempo | nameLen | nameByte (j : Nat)
  | slotValid (e : Fin 7) | enabled (e : Fin 7) | effectType (e : Fin 7) | category (e : Fin 7)
  | param (e : Fin 7) (k : Fin 9) | dspFull (e : Fin 7)
  deriving DecidableEq, Repr

/-- What the environment drives during one step (R26, R185, R191, R196; log 3). -/
structure Pins where
  /-- The reset input (R185). -/
  reset : Bool
  /-- The presented request: `some r` is `req_valid = 1` with the fields of r, `none` is `req_valid = 0` (R26). -/
  request : Option Request
  /-- The acknowledge `resp_ready` (R26). -/
  respReady : Bool
  /-- The Compute step has not finished in this step: the unspecified latency of R196. -/
  stall : Bool
  /-- The response fields the host reads during this step (R191). -/
  reads : List RespField
  deriving DecidableEq, Repr

/-- An environment that does nothing: the pins of a step the script says nothing about. -/
def Pins.quiet : Pins :=
  { reset := false, request := none, respReady := false, stall := false, reads := [] }

/-- The state. `phase`, `req` and `resp` are all the architectural state the spec gives the block (R23); `config` is
its build-time parameter; the last three fields are the host's side and no state of the block (logs 3 and 4). -/
structure State where
  /-- The transaction phase (R26). -/
  phase : Phase
  /-- The request latch: op, a, b, len and data together (R27, R32); `none` is "no value" (R45; log 1). -/
  req : Option Request
  /-- The response latch (R33 to R42). -/
  resp : Response
  /-- The build-time parameters (R189). -/
  config : Config
  /-- What the environment drives at the coming steps, first step first (log 3). -/
  script : List Pins
  /-- The delivered responses, first first: the observation of a run (R198; log 4). -/
  delivered : List Response
  /-- What the host has read, first first (R191; log 4). -/
  readings : List (RespField × Nat)
  deriving DecidableEq, Repr

/-- The derived signal `req_ready` (R26). -/
abbrev State.reqReady (s : State) : Bool := s.phase == .idle

/-- The derived signal `resp_valid` (R26). -/
abbrev State.respValid (s : State) : Bool := s.phase == .done

/-- Why the machine stops. No outcome of an operation is here: each is a returned status (R165). -/
inductive Fault where
  /-- Raised by a step in which the host reads a response field while `resp_valid = 0` (R191), or in a step that
  resets the block (log 7). Safe: the model stops where a real block drives some value (D13). -/
  | responseNotValid
  /-- Raised by a step in which the host reads, in phase DONE, a field that holds no value (R17, R41, R191). Safe: the
  model stops where a real block drives some value (D13). -/
  | fieldHoldsNoValue (f : RespField)
  /-- Raised by Compute when the request latch holds no value (R17, R45). No run from reset reaches it, since phase
  BUSY is entered with the latch written (R26). Safe. -/
  | requestHoldsNoValue
  deriving DecidableEq, Repr

/-- Why an instruction is refused. -/
inductive Refusal where
  /-- Raised by `exec` for an instruction that has no meaning yet; every instruction has one, so nothing raises it.
  Safe. -/
  | notModelled (mnemonic : String)
  deriving DecidableEq, Repr

/-- The machine right after reset (R44 to R47): phase IDLE, every field of both latches with no value. DESIGN CHOICE:
MAX_LEN is infinity (log 2), the environment does nothing, and nothing has been delivered or read (logs 3 and 4). -/
def State.reset : State :=
  { phase := .idle, req := none, resp := Response.empty, config := Config.unbounded,
    script := [], delivered := [], readings := [] }

end Sys2Proof.Machine
end

