-- ==== Sys2Proof/Machine/Flags.lean ====
section
/-! DEFINITION. The completion indicators (R25): the codes of `status` and `cls`, and the value of each response
field as the host reads it. The block has no flags or condition codes. -/

namespace Sys2Proof.Machine

/-- The status encoding (R70). -/
def statusCode : Status → BitVec 3
  | .ok => 0
  | .insufficientData => 1
  | .valueOutOfRange => 2
  | .illegalOp => 3
  | .capacityExceeded => 4

/-- The classification encoding (R71). -/
def clsCode : Cls → BitVec 2
  | .noMatch => 0
  | .vendor => 1
  | .universal => 2

/-- `params[e][k]` of a valid slot (R39). -/
def slotParam (s : Slot) (k : Fin 9) : Nat :=
  match k with
  | 0 => s.param0.toNat
  | 1 => s.param1.toNat
  | 2 => s.param2.toNat
  | 3 => s.param3.toNat
  | 4 => s.param4.toNat
  | 5 => s.param5.toNat
  | 6 => s.param6.toNat
  | 7 => s.param7.toNat
  | 8 => s.param8.toNat

/-- Slot e of the response, if the slots hold values and `slot_valid[e] = 1` (R39). -/
def slotOf (r : Response) (e : Fin 7) : Option Slot :=
  r.slots.bind fun v => v[e]

/-- The value the response latch holds in a field, as an unsigned number; `none` is "no value" (R17, R35 to R39). -/
def fieldValue (r : Response) : RespField → Option Nat
  | .status => r.status.map fun s => (statusCode s).toNat
  | .outLen => r.out.map List.length
  | .outByte i => r.out.bind fun bytes => bytes[i]?.map BitVec.toNat
  | .cls => r.cls.map fun c => (clsCode c).toNat
  | .func => r.func.map BitVec.toNat
  | .subfuncValid => r.subfuncValid.map Bool.toNat
  | .subfunc => r.subfunc.map BitVec.toNat
  | .chanValid => r.chanValid.map Bool.toNat
  | .msgType => r.msgType.map BitVec.toNat
  | .channel => r.channel.map BitVec.toNat
  | .code => r.code.map BitVec.toNat
  | .value => r.value.map BitVec.toNat
  | .value14 => r.value14.map BitVec.toNat
  | .effectCount => r.effectCount.map BitVec.toNat
  | .currentEffectIndex => r.currentEffectIndex.map BitVec.toNat
  | .tempo => r.tempo.map BitVec.toNat
  | .nameLen => r.name.map List.length
  | .nameByte j => r.name.bind fun bytes => bytes[j]?.map BitVec.toNat
  | .slotValid e => r.slots.map fun v => v[e].isSome.toNat
  | .enabled e => (slotOf r e).map fun s => s.enabled.toNat
  | .effectType e => (slotOf r e).map fun s => s.effectType.toNat
  | .category e => (slotOf r e).map fun s => s.category.toNat
  | .param e k => (slotOf r e).map fun s => slotParam s k
  | .dspFull e => (slotOf r e).map fun s => s.dspFull.toNat

/-- The response as the host may see it: the fields R40 lists. It differs from the latch in one case: for NOMATCH the
latch's `out_len` is written as 0 (R113), but R40 does not list it, so the host may not read it (R191; log 8). -/
def visible (r : Response) : Response :=
  if r.cls = some .noMatch then { r with out := none } else r

/-- What the host reads in a field; `none` where R40 lists no value for it (R191). -/
def readValue (r : Response) (f : RespField) : Option Nat :=
  fieldValue (visible r) f

end Sys2Proof.Machine
end

