-- ==== Sys2Proof/Machine/Ops.lean ====
section
/-! DEFINITION. The named operations over the state: `raise` and Compute's completion (R16, R41, R69, R176), the
handshake steps Accept and Deliver (R26), reset (R185), and the host's reads (R191). -/

namespace Sys2Proof.Machine

/-- `raise S`: the status is S and every other response field holds no value (R16, R176). The block's one form of an
exception: nothing is saved and nothing is entered (R175). -/
def raise (st : Status) : Response :=
  { Response.empty with status := some st }

/-- MAX_LEN is exceeded by a request of `len` data bytes (R170); never where MAX_LEN is infinity. -/
def exceedsMax (c : Config) (len : Nat) : Bool :=
  match c.maxLen with
  | none => false
  | some m => decide (m < len)

/-- What the request data buffer of R49 holds of `len` presented bytes: at most MAX_LEN. The request latch keeps the
whole request, as R32 says; for a request of more than MAX_LEN bytes nothing past these bytes, and none of these, has
an effect (log 18). -/
def buffered (c : Config) (D : List Byte) : List Byte :=
  match c.maxLen with
  | none => D
  | some m => D.take m

/-- `LEN_W = ceil(log2(MAX_LEN + 1))`, the index width of the request data buffer (R27, R49); none where MAX_LEN is
infinity. -/
def lenW (c : Config) : Option Nat :=
  c.maxLen.map fun m => Nat.clog 2 (m + 1)

/-- `ceil(log2(MAX_LEN + 7))`, the index width of the response byte buffer (R49); none where MAX_LEN is infinity. -/
def outLenW (c : Config) : Option Nat :=
  c.maxLen.map fun m => Nat.clog 2 (m + 7)

/-- The end of a Compute step: the whole response is written and the phase becomes DONE (R26, R41). -/
def complete (s : State) (r : Response) : Host.Outcome State Fault Refusal :=
  .next { s with resp := r, phase := .done }

/-- Steps 2 and 3 of R69 for a request of `len` data bytes: CAPACITY_EXCEEDED before the operation runs (R170), else
the operation's own response. -/
def compute (s : State) (len : Nat) (r : Response) : Host.Outcome State Fault Refusal :=
  if exceedsMax s.config len then complete s (raise .capacityExceeded) else complete s r

/-- Accept: the whole request is copied into the request latch, and the phase becomes BUSY (R26, R32). DESIGN CHOICE
(log 18): so is a request of more than MAX_LEN bytes, of which R49's buffer holds MAX_LEN (`buffered`). -/
def accept (s : State) (r : Request) : State :=
  { s with req := some r, phase := .busy }

/-- Deliver: the phase becomes IDLE; the response latch keeps its contents (R26, R42). The host has the response it
could read (R198). -/
def deliver (s : State) : State :=
  { s with phase := .idle, delivered := s.delivered ++ [visible s.resp] }

/-- Reset, in any phase: phase IDLE, both latches with no value (R185, R44 to R47). The parameter and the host's side
are no state of the block. -/
def resetBlock (s : State) : State :=
  { s with phase := .idle, req := none, resp := Response.empty }

/-- What the environment drives during this step: the head of the script, or nothing when it has run out. -/
def pins (s : State) : Pins :=
  s.script.headD Pins.quiet

/-- The environment moves on to its next step. -/
def advance (s : State) : State :=
  { s with script := s.script.tail }

/-- One read of a response field by the host (R191): only while `resp_valid = 1`, and only a field that holds a value
R40 lists. -/
def readField (s : State) (f : RespField) : Except Fault Nat :=
  if s.phase = .done then
    match readValue s.resp f with
    | some v => .ok v
    | none => .error (.fieldHoldsNoValue f)
  else .error .responseNotValid

/-- The host's reads of one step, in order: each value is appended to the host's readings. Reads have no side effect
on the block (R60). -/
def hostReads (s : State) (fs : List RespField) : Except Fault State :=
  match fs with
  | [] => .ok s
  | f :: rest =>
    match readField s f with
    | .ok v => hostReads { s with readings := s.readings ++ [(f, v)] } rest
    | .error e => .error e

/-- The instruction of the request latch: what Compute runs. -/
def latched (s : State) : Option Instr :=
  s.req.map decode

end Sys2Proof.Machine
end

