-- ==== Sys2Proof/Machine/Operands.lean ====
section
/-! DEFINITION. The operand forms: the range check of transmission bytes (R12, R168), reads of the request buffer that
carry the proof of their bound (R16, R55), and the stream-bit view of a byte sequence (R21, R58). -/

namespace Sys2Proof.Machine

/-- A transmission-legal byte: 0 to 127, bit 7 clear (R12). -/
def legal (x : Byte) : Bool :=
  decide (x.toNat ≤ 0x7F)

/-- Every byte of a payload is transmission-legal (R101). -/
def allLegal (bytes : List Byte) : Bool :=
  bytes.all legal

/-- `D[i]`, the same as `MemRead(i, 1)`: defined for `i < len` only (R16, R55). -/
def memRead (D : List Byte) (i : Nat) (h : i < D.length) : Byte :=
  D[i]

/-- Slot e of a patch buffer: `slot[k] = D[18e + k]` for k in 0..17 (R140). DESIGN CHOICE (log 17): so slot 6 reads
buffer bytes 108 to 125 whole, bits 0 and 1 of byte 109 with them, against R161 (c), R160 and R91. -/
def slotAt (D : List Byte) (e : Nat) (h : 18 * e + 18 ≤ D.length) (k : Fin 18) : Byte :=
  memRead D (18 * e + k.val) (by omega)

/-- Stream bit k of a byte sequence: bit `k mod 8` of `s[floor(k / 8)]` (R21, R58); false past the end. -/
def streamBit (s : List Byte) (k : Nat) : Bool :=
  match s[k / 8]? with
  | some x => x.toNat.testBit (k % 8)
  | none => false

/-- `field(s, lo, w)`: w stream bits from bit lo on, bit lo the least significant (R58). -/
def streamField (s : List Byte) (lo : Nat) : Nat → Nat
  | 0 => 0
  | w + 1 => streamField s lo w + ((streamBit s (lo + w)).toNat <<< w)

/-- `N(s)`, the little-endian integer of a byte sequence (R58). -/
def littleEndian : List Byte → Nat
  | [] => 0
  | x :: rest => x.toNat + 256 * littleEndian rest

end Sys2Proof.Machine
end

