-- ==== Sys2Proof/Machine/FrameCodec.lean ====
section
/-! DEFINITION. FrameCodec (R100 to R117): BUILD_COMMAND, BUILD_UNIVERSAL_INQUIRY, CLASSIFY, and the five frame rows
CLASSIFY tells apart. -/

namespace Sys2Proof.Machine

/-- A response that is a byte buffer: status OK, out (R40). -/
def outResponse (bytes : List Byte) : Response :=
  { Response.empty with status := some .ok, out := some bytes }

/-- The vendor frame of a function code and a payload (R72, R102). -/
def vendorFrameOf (func : Byte) (payload : List Byte) : List Byte :=
  vendorBytes func (payload ++ [sysexEnd])

/-- BUILD_COMMAND (R101, R102). -/
def commandResponse (func : Byte) (payload : List Byte) : Response :=
  if legal func && allLegal payload then outResponse (vendorFrameOf func payload)
  else raise .valueOutOfRange

/-- CLASSIFY's vendor result (R109, R110): `rest` is D[5 .. len), whose last byte is dropped unchecked. -/
def vendorResult (func : Byte) (rest : List Byte) : Response :=
  { Response.empty with
    status := some .ok, cls := some .vendor, func := some func, subfuncValid := some false,
    out := some rest.dropLast }

/-- CLASSIFY's universal result (R110, R111). -/
def universalResult (func subfunc : Byte) (rest : List Byte) : Response :=
  { Response.empty with
    status := some .ok, cls := some .universal, func := some func, subfuncValid := some true,
    subfunc := some subfunc, out := some rest.dropLast }

/-- CLASSIFY's NoMatch result with the plain channel message's fields (R112, R75). `out_len` is written as 0 (R113). -/
def channelResult (d0 d1 d2 : Byte) : Response :=
  { Response.empty with
    status := some .ok, cls := some .noMatch, out := some [], chanValid := some true,
    msgType := some (BitVec.ofNat 4 (d0.toNat >>> 4)),
    channel := some (BitVec.ofNat 4 (d0.toNat &&& 0xF)),
    code := some d1, value := some d2 }

/-- CLASSIFY's NoMatch result for fewer than three bytes (R112). -/
def shortResult : Response :=
  { Response.empty with
    status := some .ok, cls := some .noMatch, out := some [], chanValid := some false }

/-- CLASSIFY (R107 to R113). Both header tests need `len >= 5`. -/
def classifyResponse (D : List Byte) : Response :=
  match D with
  | d0 :: d1 :: d2 :: d3 :: d4 :: rest =>
    if d0 = sysexStart ∧ d1 = vendor1 ∧ d2 = vendor2 ∧ d3 = vendor3 then vendorResult d4 rest
    else if d0 = sysexStart ∧ d1 = universal1 ∧ d2 = universal2 then universalResult d3 d4 rest
    else channelResult d0 d1 d2
  | d0 :: d1 :: d2 :: _ => channelResult d0 d1 d2
  | _ => shortResult

/-- CLASSIFY of a received byte sequence under the common check of R69. -/
def classifyBytes (bytes : List Byte) (s : State) : Host.Outcome State Fault Refusal :=
  compute s bytes.length (classifyResponse bytes)

/-- BUILD_COMMAND under the common check of R69. -/
def buildBytes (func : Byte) (payload : List Byte) (s : State) : Host.Outcome State Fault Refusal :=
  compute s payload.length (commandResponse func payload)

/-- BUILD_COMMAND (R102). -/
def execBuildCommand (func : Byte) (payload : List Byte) (s : State) : Host.Outcome State Fault Refusal :=
  buildBytes func payload s

/-- BUILD_UNIVERSAL_INQUIRY (R105). -/
def execBuildUniversalInquiry (len : Nat) (s : State) : Host.Outcome State Fault Refusal :=
  compute s len (outResponse inquiryBytes)

/-- CLASSIFY (R113). -/
def execClassify (bytes : List Byte) (s : State) : Host.Outcome State Fault Refusal :=
  classifyBytes bytes s

/-- VENDOR_FRAME: CLASSIFY of the frame's bytes (R107, R109). -/
def execVendorFrame (func : Byte) (rest : List Byte) (s : State) : Host.Outcome State Fault Refusal :=
  classifyBytes (vendorBytes func rest) s

/-- UNIVERSAL_FRAME: CLASSIFY of the frame's bytes (R108, R111). -/
def execUniversalFrame (func subfunc : Byte) (rest : List Byte) (s : State) : Host.Outcome State Fault Refusal :=
  classifyBytes (universalBytes func subfunc rest) s

/-- UNIVERSAL_INQUIRY: CLASSIFY of the six bytes (R74, R117 b). -/
def execUniversalInquiry (s : State) : Host.Outcome State Fault Refusal :=
  classifyBytes inquiryBytes s

/-- GENERAL_INFO: CLASSIFY of the frame's bytes; the payload is returned undecoded (R9, R88, R90). -/
def execGeneralInfo (subfunc : Byte) (rest : List Byte) (s : State) : Host.Outcome State Fault Refusal :=
  classifyBytes (universalBytes generalInfoFunc subfunc rest) s

/-- CHANNEL_MESSAGE: CLASSIFY of the message's bytes (R75, R112). -/
def execChannelMessage (status data1 data2 : Byte) (rest : List Byte) (s : State) :
    Host.Outcome State Fault Refusal :=
  classifyBytes (status :: data1 :: data2 :: rest) s

end Sys2Proof.Machine
end

