-- ==== Sys2Proof/Machine/ByteUnpacker.lean ====
section
/-! DEFINITION. ByteUnpacker (R118 to R130): UNPACK, its streaming form (R124), and PACK, its inverse, which is no
operation of the block (R129). -/

namespace Sys2Proof.Machine

/-- The recovered value of data byte i under mask m: `d | (((m >> (6 - i)) & 1) << 7)` (R121). -/
def recovered (m : Byte) (i : Nat) (d : Byte) : Byte :=
  BitVec.ofNat 8 (d.toNat ||| (((m.toNat >>> (6 - i)) &&& 1) <<< 7))

/-- The recovered values of a group's data bytes from index i on (R121). -/
def recoverFrom (m : Byte) (i : Nat) : List Byte → List Byte
  | [] => []
  | d :: ds => recovered m i d :: recoverFrom m (i + 1) ds

/-- Group k of the packed stream: `D[8k .. min(8k + 8, len))` (R119). -/
def groupAt (D : List Byte) (k : Nat) : List Byte :=
  (D.drop (8 * k)).take 8

/-- The output of one group: its first byte is the mask byte, consumed first and always present (R119, R121). -/
def unpackGroup : List Byte → List Byte
  | [] => []
  | m :: ds => recoverFrom m 0 ds

/-- The number of groups, `ceil(len / 8)` (R119). -/
def groupCount (len : Nat) : Nat :=
  (len + 7) / 8

/-- UNPACK's output: the groups in order (R121, R122). -/
def unpackBytes (D : List Byte) : List Byte :=
  (List.range (groupCount D.length)).flatMap fun k => unpackGroup (groupAt D k)

/-- The streaming unpacker of R124 with phase counter c and mask latch m: not architectural (R43). -/
def unpackStream (c : Nat) (m : Byte) : List Byte → List Byte
  | [] => []
  | d :: ds =>
    if c = 0 then unpackStream 1 d ds
    else BitVec.ofNat 8 (d.toNat ||| (((m.toNat >>> (7 - c)) &&& 1) <<< 7)) :: unpackStream ((c + 1) % 8) m ds

/-- The mask byte's value of a chunk of PACK, from index i on: the sum of `((u_i >> 7) & 1) << (6 - i)` (R129). -/
def packMask (i : Nat) : List Byte → Nat
  | [] => 0
  | u :: us => (((u.toNat >>> 7) &&& 1) <<< (6 - i)) + packMask (i + 1) us

/-- The group of one chunk of up to 7 bytes (R129). -/
def packChunk (chunk : List Byte) : List Byte :=
  BitVec.ofNat 8 (packMask 0 chunk) :: chunk.map fun u => BitVec.ofNat 8 (u.toNat &&& 0x7F)

/-- PACK(u): u split into chunks of 7 bytes, the last one possibly shorter, each packed to a group (R129). -/
def packBytes (u : List Byte) : List Byte :=
  (List.range ((u.length + 6) / 7)).flatMap fun k => packChunk ((u.drop (7 * k)).take 7)

/-- UNPACK (R122): total on every length and every byte value (R123). -/
def execUnpack (stream : List Byte) (s : State) : Host.Outcome State Fault Refusal :=
  compute s stream.length (outResponse (unpackBytes stream))

end Sys2Proof.Machine
end

