-- ==== Sys2Proof/Machine/Commands.lean ====
section
/-! DEFINITION. The nine catalog commands: `CMD_N [payload]` stands for BUILD_COMMAND with the catalog's func byte and
the host's payload (R98). The payload's layout is the host's (R80 to R87); the block checks only its range (R101). -/

namespace Sys2Proof.Machine

/-- CMD_SEND_PATCH (R79, R98). -/
def execCmdSendPatch (payload : List Byte) (s : State) : Host.Outcome State Fault Refusal :=
  buildBytes (commandCode .sendPatch) payload s

/-- CMD_REQUEST_PATCH (R80, R98). -/
def execCmdRequestPatch (payload : List Byte) (s : State) : Host.Outcome State Fault Refusal :=
  buildBytes (commandCode .requestPatch) payload s

/-- CMD_SEND_CURRENT_PATCH (R81, R98). -/
def execCmdSendCurrentPatch (payload : List Byte) (s : State) : Host.Outcome State Fault Refusal :=
  buildBytes (commandCode .sendCurrentPatch) payload s

/-- CMD_REQUEST_CURRENT_PATCH (R82, R98). -/
def execCmdRequestCurrentPatch (payload : List Byte) (s : State) : Host.Outcome State Fault Refusal :=
  buildBytes (commandCode .requestCurrentPatch) payload s

/-- CMD_PARAMETER_CHANGE (R83, R98). -/
def execCmdParameterChange (payload : List Byte) (s : State) : Host.Outcome State Fault Refusal :=
  buildBytes (commandCode .parameterChange) payload s

/-- CMD_STORE_PATCH (R84, R98). -/
def execCmdStorePatch (payload : List Byte) (s : State) : Host.Outcome State Fault Refusal :=
  buildBytes (commandCode .storePatch) payload s

/-- CMD_REQUEST_CURRENT_PROGRAM (R85, R98). -/
def execCmdRequestCurrentProgram (payload : List Byte) (s : State) : Host.Outcome State Fault Refusal :=
  buildBytes (commandCode .requestCurrentProgram) payload s

/-- CMD_ENABLE_PARAMETER_CHANGE (R86, R98). -/
def execCmdEnableParameterChange (payload : List Byte) (s : State) : Host.Outcome State Fault Refusal :=
  buildBytes (commandCode .enableParameterChange) payload s

/-- CMD_DISABLE_PARAMETER_CHANGE (R87, R98). -/
def execCmdDisableParameterChange (payload : List Byte) (s : State) : Host.Outcome State Fault Refusal :=
  buildBytes (commandCode .disableParameterChange) payload s

end Sys2Proof.Machine
end

