-- ==== Sys2Proof/Machine/PatchParser.lean ====
section
/-! DEFINITION. PatchParser (R136 to R164): PARSE_PATCH. Every formula is the spec's, in unbounded naturals (R14), and
is narrowed once to a field that holds every value it can give. -/

namespace Sys2Proof.Machine

/-- The 3-bit effect count of buffer byte 109 (R138). -/
def effectCountOf (b109 : Byte) : BitVec 3 :=
  BitVec.ofNat 3 ((b109.toNat >>> 2) &&& 0b111)

/-- `current_effect_index` (R154). UNVERIFIED semantics, exact formula: named as I3 asks. -/
def ceiOf (b108 b109 : Byte) : BitVec 3 :=
  BitVec.ofNat 3 (5 - ((b108.toNat >>> 6) ||| (b109.toNat &&& 0b1)))

/-- `dsp_full[e]`: bit e of buffer byte 108 (R153). UNVERIFIED semantics, exact formula: named as I3 asks. -/
def dspOf (b108 : Byte) (e : Nat) : Bool :=
  ((b108.toNat >>> e) &&& 1) != 0

/-- `tempo` (R155). -/
def tempoOf (b109 b110 : Byte) : Byte :=
  BitVec.ofNat 8 ((b109.toNat >>> 5) ||| ((b110.toNat &&& 0b11111) <<< 3))

/-- A byte of the trim set: NUL, HT, LF, VT, FF, CR, space (R157, D11). -/
def inTrimSet (x : Byte) : Bool :=
  x == 0x00 || x == 0x09 || x == 0x0A || x == 0x0B || x == 0x0C || x == 0x0D || x == 0x20

/-- A name field without its trailing trim bytes; leading and inner ones stay (R156). -/
def trimName (field : List Byte) : List Byte :=
  (field.reverse.dropWhile inTrimSet).reverse

/-- The 8-bit parameter whose low nibble is the high nibble of `x` and whose high nibble is the low nibble of `y`
(R147 to R151). -/
def nibblePair (x y : Byte) : Byte :=
  BitVec.ofNat 8 ((x.toNat >>> 4) ||| ((y.toNat &&& 0b1111) <<< 4))

/-- One effect slot from its 18 bytes (R141 to R152) and its dsp_full bit (R153). DESIGN CHOICE (log 17): R142's formula
holds for slot 6 too, where `slot[1]` is buffer byte 109 and its bits 0 and 1 become `type[6]` bits 3 and 4. -/
def parseSlot (slot : Fin 18 → Byte) (dsp : Bool) : Slot :=
  { enabled := ((slot 0).toNat &&& 0b1) != 0
    effectType := BitVec.ofNat 7 (((slot 0).toNat >>> 5) ||| (((slot 1).toNat &&& 0b1111) <<< 3))
    category := BitVec.ofNat 4 (((slot 3).toNat >>> 1) &&& 0b1111)
    param0 := BitVec.ofNat 13
      (((slot 3).toNat >>> 5) ||| ((slot 4).toNat <<< 3) ||| (((slot 5).toNat &&& 0b11) <<< 11))
    param1 := BitVec.ofNat 13 (((slot 5).toNat >>> 2) ||| (((slot 6).toNat &&& 0b1111111) <<< 6))
    param2 := BitVec.ofNat 13
      (((slot 6).toNat >>> 7) ||| ((slot 7).toNat <<< 1) ||| (((slot 8).toNat &&& 0b1111) <<< 9))
    param3 := nibblePair (slot 8) (slot 9)
    param4 := nibblePair (slot 9) (slot 10)
    param5 := nibblePair (slot 10) (slot 11)
    param6 := nibblePair (slot 11) (slot 12)
    param7 := nibblePair (slot 12) (slot 13)
    param8 := slot 16
    dspFull := dsp }

/-- Result slot e: parsed where `e < effect_count`, else not valid (R140). The second length check (R139) is what
makes its 18 bytes readable. -/
def slotEntry (D : List Byte) (b108 : Byte) (count : Nat) (h : 18 * count ≤ D.length) (e : Nat) : Option Slot :=
  if he : e < count then some (parseSlot (slotAt D e (by omega)) (dspOf b108 e)) else none

/-- The Patch of a buffer that has passed both length checks (R158). -/
def parsedPatch (D : List Byte) (h1 : 121 ≤ D.length)
    (h2 : 18 * (effectCountOf (memRead D 109 (by omega))).toNat ≤ D.length) : Response :=
  let b108 := memRead D 108 (by omega)
  let b109 := memRead D 109 (by omega)
  let b110 := memRead D 110 (by omega)
  let entry := slotEntry D b108 (effectCountOf b109).toNat h2
  { Response.empty with
    status := some .ok
    effectCount := some (effectCountOf b109)
    currentEffectIndex := some (ceiOf b108 b109)
    tempo := some (tempoOf b109 b110)
    name := some (trimName ((D.drop 111).take 10))
    slots := some #v[entry 0, entry 1, entry 2, entry 3, entry 4, entry 5, entry 6] }

/-- PARSE_PATCH (R137, R139, R158): both length checks come before the reads they allow. -/
def patchResponse (D : List Byte) : Response :=
  if h1 : 121 ≤ D.length then
    if h2 : 18 * (effectCountOf (memRead D 109 (by omega))).toNat ≤ D.length then parsedPatch D h1 h2
    else raise .insufficientData
  else raise .insufficientData

/-- PARSE_PATCH (R158). -/
def execParsePatch (buffer : List Byte) (s : State) : Host.Outcome State Fault Refusal :=
  compute s buffer.length (patchResponse buffer)

end Sys2Proof.Machine
end

