-- ==== Sys2Proof/Machine/Reserved.lean ====
section
/-! DEFINITION. The reserved operation selects 6 and 7 (R171): no operation runs, and ILLEGAL_OP has priority over the
capacity check (R173). -/

namespace Sys2Proof.Machine

/-- RESERVED_6 (R171). -/
def execReserved6 (s : State) : Host.Outcome State Fault Refusal :=
  complete s (raise .illegalOp)

/-- RESERVED_7 (R171). -/
def execReserved7 (s : State) : Host.Outcome State Fault Refusal :=
  complete s (raise .illegalOp)

end Sys2Proof.Machine
end

