-- ==== Sys2Proof/Machine/ValueCombinator.lean ====
section
/-! DEFINITION. ValueCombinator (R131 to R135): COMBINE. -/

namespace Sys2Proof.Machine

/-- The Value14 of two 7-bit digits, low first: `low | (high << 7)` (R52, R133). -/
def combineValue (low high : Byte) : BitVec 14 :=
  BitVec.ofNat 14 (low.toNat ||| (high.toNat <<< 7))

/-- COMBINE's response (R132, R133). -/
def combineResponse (low high : Byte) : Response :=
  if legal low && legal high then
    { Response.empty with status := some .ok, value14 := some (combineValue low high) }
  else raise .valueOutOfRange

/-- COMBINE (R133). -/
def execCombine (low high : Byte) (len : Nat) (s : State) : Host.Outcome State Fault Refusal :=
  compute s len (combineResponse low high)

end Sys2Proof.Machine
end

