-- ==== Sys2Proof/Machine/Dispatch.lean ====
section
/-! DEFINITION. The dispatch: one arm per row of the opcode table. -/

namespace Sys2Proof.Machine

def exec (i : Instr) (s : State) : Host.Outcome State Fault Refusal :=
  match i with
  | .buildCommand func payload => Sys2Proof.Machine.execBuildCommand func payload s
  | .buildUniversalInquiry len => Sys2Proof.Machine.execBuildUniversalInquiry len s
  | .classify bytes => Sys2Proof.Machine.execClassify bytes s
  | .unpack stream => Sys2Proof.Machine.execUnpack stream s
  | .combine low high len => Sys2Proof.Machine.execCombine low high len s
  | .parsePatch buffer => Sys2Proof.Machine.execParsePatch buffer s
  | .reserved6 => Sys2Proof.Machine.execReserved6 s
  | .reserved7 => Sys2Proof.Machine.execReserved7 s
  | .vendorFrame func rest => Sys2Proof.Machine.execVendorFrame func rest s
  | .universalFrame func subfunc rest => Sys2Proof.Machine.execUniversalFrame func subfunc rest s
  | .universalInquiry => Sys2Proof.Machine.execUniversalInquiry s
  | .generalInfo subfunc rest => Sys2Proof.Machine.execGeneralInfo subfunc rest s
  | .channelMessage status data1 data2 rest => Sys2Proof.Machine.execChannelMessage status data1 data2 rest s
  | .cmdSendPatch payload => Sys2Proof.Machine.execCmdSendPatch payload s
  | .cmdRequestPatch payload => Sys2Proof.Machine.execCmdRequestPatch payload s
  | .cmdSendCurrentPatch payload => Sys2Proof.Machine.execCmdSendCurrentPatch payload s
  | .cmdRequestCurrentPatch payload => Sys2Proof.Machine.execCmdRequestCurrentPatch payload s
  | .cmdParameterChange payload => Sys2Proof.Machine.execCmdParameterChange payload s
  | .cmdStorePatch payload => Sys2Proof.Machine.execCmdStorePatch payload s
  | .cmdRequestCurrentProgram payload => Sys2Proof.Machine.execCmdRequestCurrentProgram payload s
  | .cmdEnableParameterChange payload => Sys2Proof.Machine.execCmdEnableParameterChange payload s
  | .cmdDisableParameterChange payload => Sys2Proof.Machine.execCmdDisableParameterChange payload s

end Sys2Proof.Machine
end

