-- ==== Sys2Proof/Machine/Handshake.lean ====
section
/-! DEFINITION. The steps of a transaction by phase (R26), on the pins of one step and the state after the host's
reads of that step. -/

namespace Sys2Proof.Machine

/-- A step with reset asserted: the block is reset in any phase and the transaction in flight is abandoned (R185,
R186). `resp_valid` is 0 there, so a field read in the same step is outside the read window (R191; log 7). -/
def resetStep (p : Pins) (t : State) : Host.Outcome State Fault Refusal :=
  match p.reads with
  | [] => .next (resetBlock t)
  | _ :: _ => .fault .responseNotValid

/-- A step in IDLE: Accept is enabled while a request is presented (R26). -/
def idleStep (p : Pins) (t : State) : Host.Outcome State Fault Refusal :=
  match p.request with
  | some r => .next (accept t r)
  | none => .next t

/-- A step in BUSY: Compute runs the latched instruction, unless the latency of R196 holds it in this step. -/
def busyStep (p : Pins) (t : State) : Host.Outcome State Fault Refusal :=
  if p.stall then .next t
  else
    match latched t with
    | some i => exec i t
    | none => .fault .requestHoldsNoValue

/-- A step in DONE: Deliver is enabled when the host acknowledges (R26); without it the block stays in DONE (R192). -/
def doneStep (p : Pins) (t : State) : Host.Outcome State Fault Refusal :=
  if p.respReady then .next (deliver t) else .next t

/-- The step the phase enables (R26). -/
def phaseStep (p : Pins) (t : State) : Host.Outcome State Fault Refusal :=
  match t.phase with
  | .idle => idleStep p t
  | .busy => busyStep p t
  | .done => doneStep p t

/-- A step without reset: the host's reads on the state it starts from (R191), then the step its phase enables. -/
def runStep (p : Pins) (t : State) : Host.Outcome State Fault Refusal :=
  match hostReads t p.reads with
  | .error e => .fault e
  | .ok u => phaseStep p u

end Sys2Proof.Machine
end

