-- ==== Sys2Proof/Machine/Step.lean ====
section
/-! DEFINITION. One step of the machine: the environment drives its pins for this step, and at most one of reset,
Accept, Compute and Deliver happens (R26, R185). -/

namespace Sys2Proof.Machine

/-- One step: the environment moves on, and reset dominates (R185). -/
def step (s : State) : Host.Outcome State Fault Refusal :=
  if (pins s).reset then resetStep (pins s) (advance s) else runStep (pins s) (advance s)

/-- The state with a word of the opcode table as the request Compute runs next (log 6): the request stands in the
latch, the phase is BUSY, as after Accept, and the environment does nothing during the next step. -/
def State.withFetchWord (s : State) (nbits w : Nat) : State :=
  { s with phase := .busy, req := some (tableRequest nbits w), script := Pins.quiet :: s.script }

end Sys2Proof.Machine
end

