-- ==== Sys2Proof/Machine/HostLayouts.lean ====
section
/-! DEFINITION. The payload layouts the spec records (R79 to R90) and the host's routing of patch-bearing frames (R92).
They are the host's: no step of the block calls them (R7, R9, D25, D26). -/

namespace Sys2Proof.Machine

/-- A SEND_PATCH payload p (R79): 5-byte header, packed body, 5-byte trailer. -/
structure SendPatchLayout where
  header : List Byte
  body : List Byte
  trailer : List Byte
  deriving DecidableEq, Repr

/-- `p[0..5)`, `p[5 .. plen-5)` and `p[plen-5 .. plen)` (R79); `none` where p is shorter than its header and
trailer. -/
def sendPatchLayout (p : List Byte) : Option SendPatchLayout :=
  if 10 ≤ p.length then
    some { header := p.take 5, body := (p.drop 5).take (p.length - 10), trailer := p.drop (p.length - 5) }
  else none

/-- What a PARAMETER_CHANGE's paramIndex selects (R83). -/
inductive ParamTarget where
  | toggle
  | param (k : Nat)
  deriving DecidableEq, Repr

/-- A PARAMETER_CHANGE payload `[effectIndex, paramIndex, valueLow, valueHigh]` (R83). -/
structure ParameterChangeLayout where
  effectIndex : Byte
  target : ParamTarget
  value : Nat
  deriving DecidableEq, Repr

/-- The fields of a PARAMETER_CHANGE payload: exactly four bytes (R83). DESIGN CHOICE (log 19): R83's formula gives the
value whatever the bytes are; for a received valueLow or valueHigh above 0x7F, where R83's Value14 has no value, that is
a number that need not fit 14 bits. -/
def parameterChangeLayout : List Byte → Option ParameterChangeLayout
  | [effectIndex, paramIndex, low, high] =>
    some { effectIndex := effectIndex
           target := if paramIndex.toNat = 0 then .toggle else .param (paramIndex.toNat - 1)
           value := low.toNat ||| (high.toNat <<< 7) }
  | _ => none

/-- The destination slot index of a STORE_PATCH payload: byte 3 of nine (R84). -/
def storePatchSlot (p : List Byte) : Option Byte :=
  if p.length = 9 then p[3]? else none

/-- The general-information response payload (R90). -/
structure GeneralInfoLayout where
  manufacturerId : Byte
  deviceId : Byte
  reserved2 : Byte
  reserved3 : Byte
  versionBytes : List Byte
  deriving DecidableEq, Repr

/-- The fields of a general-information response payload (R90). -/
def generalInfoLayout : List Byte → Option GeneralInfoLayout
  | manufacturer :: device :: r2 :: r3 :: version =>
    some { manufacturerId := manufacturer, deviceId := device, reserved2 := r2, reserved3 := r3,
           versionBytes := version }
  | _ => none

/-- The packed body the host passes to UNPACK after a VENDOR classification of a patch-bearing function (R92); `none`
for any other response. -/
def routePatch (r : Response) : Option (List Byte) :=
  match r.cls, r.func, r.out with
  | some .vendor, some func, some payload =>
    if func = commandCode .sendCurrentPatch then some payload
    else if func = commandCode .sendPatch then (sendPatchLayout payload).map SendPatchLayout.body
    else none
  | _, _, _ => none

end Sys2Proof.Machine
end

