-- ==== Sys2Proof/Safety.lean ====
section
/-! DEFINITION. The terms claims are stated in: the response a request has by R69 alone, the fields R40 lists, the
invariants of a run, and what a safe run is. -/

namespace Sys2Proof.Machine

/-- The response of a request under a configuration, by the three decode steps of R69 on the op field alone:
ILLEGAL_OP for op 6 and 7; else CAPACITY_EXCEEDED where `len > MAX_LEN`; else the selected operation's response. -/
def responseOf (c : Config) (r : Request) : Response :=
  if 6 ≤ r.op.toNat then raise .illegalOp
  else if exceedsMax c r.len then raise .capacityExceeded
  else
    match opOf r.op with
    | .buildCommand => commandResponse r.a r.data
    | .buildUniversalInquiry => outResponse inquiryBytes
    | .classify => classifyResponse r.data
    | .unpack => outResponse (unpackBytes r.data)
    | .combine => combineResponse r.a r.b
    | .parsePatch => patchResponse r.data
    | .reserved6 => raise .illegalOp
    | .reserved7 => raise .illegalOp

/-- `len` is at most MAX_LEN, or MAX_LEN is infinity (R10, R170). -/
def withinMax (s : State) (len : Nat) : Prop :=
  ∀ m, s.config.maxLen = some m → len ≤ m

/-- Two requests have the same length and the same bytes in R49's buffer. -/
abbrev sameBuffer (c : Config) (r q : Request) : Prop :=
  r.len = q.len ∧ buffered c r.data = buffered c q.data

/-- The state after a Compute step that wrote the response `r` (R26): everything else is unchanged. -/
def finished (s : State) (r : Response) : State :=
  { s with phase := .done, resp := r }

/-- A response that holds a status and nothing else (R40, R176). -/
def statusOnly (st : Status) : Response :=
  { Response.empty with status := some st }

/-- The response an instruction completes with: what `exec` writes into the response latch. -/
def execResponse (i : Instr) (s : State) : Response :=
  match exec i s with
  | .next t => t.resp
  | .fault _ => Response.empty
  | .refused _ => Response.empty

/-- The statuses each operation can produce (R172). -/
def mayReport : Op → Status → Bool
  | .buildCommand, .ok => true
  | .buildCommand, .valueOutOfRange => true
  | .buildCommand, .capacityExceeded => true
  | .buildUniversalInquiry, .ok => true
  | .buildUniversalInquiry, .capacityExceeded => true
  | .classify, .ok => true
  | .classify, .capacityExceeded => true
  | .unpack, .ok => true
  | .unpack, .capacityExceeded => true
  | .combine, .ok => true
  | .combine, .valueOutOfRange => true
  | .combine, .capacityExceeded => true
  | .parsePatch, .ok => true
  | .parsePatch, .insufficientData => true
  | .parsePatch, .capacityExceeded => true
  | .reserved6, .illegalOp => true
  | .reserved7, .illegalOp => true
  | _, _ => false

/-- The fields of an OK response of an operation that R40 lists, for the classification and lengths the response
itself has. -/
def listedOk (o : Op) (r : Response) : RespField → Bool
  | .status => true
  | .outLen => r.cls != some .noMatch && o != .combine && o != .parsePatch
  | .outByte i =>
      r.cls != some .noMatch && o != .combine && o != .parsePatch
        && decide (i < (r.out.getD []).length)
  | .cls => o == .classify
  | .func => o == .classify && (r.cls == some .vendor || r.cls == some .universal)
  | .subfuncValid => o == .classify && (r.cls == some .vendor || r.cls == some .universal)
  | .subfunc => o == .classify && r.cls == some .universal
  | .chanValid => o == .classify && r.cls == some .noMatch
  | .msgType => o == .classify && r.cls == some .noMatch && r.chanValid == some true
  | .channel => o == .classify && r.cls == some .noMatch && r.chanValid == some true
  | .code => o == .classify && r.cls == some .noMatch && r.chanValid == some true
  | .value => o == .classify && r.cls == some .noMatch && r.chanValid == some true
  | .value14 => o == .combine
  | .effectCount => o == .parsePatch
  | .currentEffectIndex => o == .parsePatch
  | .tempo => o == .parsePatch
  | .nameLen => o == .parsePatch
  | .nameByte j => o == .parsePatch && decide (j < (r.name.getD []).length)
  | .slotValid _ => o == .parsePatch
  | .enabled e => o == .parsePatch && (slotOf r e).isSome
  | .effectType e => o == .parsePatch && (slotOf r e).isSome
  | .category e => o == .parsePatch && (slotOf r e).isSome
  | .param e _ => o == .parsePatch && (slotOf r e).isSome
  | .dspFull e => o == .parsePatch && (slotOf r e).isSome

/-- The fields R40 lists for an operation's response: "A transaction that does not complete with OK writes `status`
only." -/
def listed (o : Op) (r : Response) (f : RespField) : Bool :=
  if r.status = some .ok then listedOk o r f else f == .status

/-- The response latch and the request latch agree with the phase (R26, R22): in BUSY the request latch holds a
request; in DONE it does, and the response latch is the response of exactly that request. -/
def Consistent (s : State) : Prop :=
  match s.phase with
  | .idle => True
  | .busy => s.req.isSome = true
  | .done => ∃ r, s.req = some r ∧ s.resp = responseOf s.config r

/-- A delivered response is what the host could see of the response of some request (R198). -/
def DeliveredAreResponses (s : State) : Prop :=
  ∀ d ∈ s.delivered, ∃ r, d = visible (responseOf s.config r)

/-- The invariant of a run. -/
def Inv (s : State) : Prop :=
  Consistent s ∧ DeliveredAreResponses s

/-- A step is safe when the machine goes on. -/
def StepSafe (s : State) : Prop :=
  ∃ t, step s = .next t

/-- The bits of slot byte k that a slot field reads (R160). -/
def slotMask (k : Nat) : Byte :=
  match k with
  | 0 => 0xE1
  | 1 => 0x0F
  | 2 => 0x00
  | 3 => 0xFE
  | 13 => 0x0F
  | 14 => 0x00
  | 15 => 0x00
  | 17 => 0x00
  | _ => 0xFF

/-- The bits of buffer byte i that a header field or a dsp_full bit reads, for a given effect count (R160). -/
def headerMask (count i : Nat) : Byte :=
  if i = 108 then BitVec.ofNat 8 (0xC0 ||| (2 ^ count - 1))
  else if i = 109 then 0xFD
  else if i = 110 then 0x1F
  else if 111 ≤ i ∧ i ≤ 120 then 0xFF
  else 0x00

/-- The bits of buffer byte i that PARSE_PATCH reads, for a given effect count (R160). DESIGN CHOICE (log 17): with
effect count 7, bit 1 of byte 109 is among them, since R142 reads it for slot 6, although R160 and R91 list it as not
used; and bit 0 is read for `type[6]` as well as for the selector, although R161 (c) names the selector alone. -/
def usedMask (count i : Nat) : Byte :=
  (if i < 18 * count then slotMask (i % 18) else 0x00) ||| headerMask count i

/-- The environment of one whole transaction of the request r, without delay: present it, wait, acknowledge (R26). -/
def transactionPins (r : Request) : List Pins :=
  [{ Pins.quiet with request := some r }, Pins.quiet, { Pins.quiet with respReady := true }]

/-- The block's own state: what R23 calls its only architectural state. -/
def sameBlock (s t : State) : Prop :=
  s.phase = t.phase ∧ s.req = t.req ∧ s.resp = t.resp

end Sys2Proof.Machine
end

