-- ==== Sys2Proof/Certificates/Slice0/Obligations.lean ====
section
/-! DEFINITION. The statements about the machine that the provers settle. Each docstring names the rule of spec/ it
formalises; a clause that rests on the model's own choice names its log entry. -/

open Sys2Proof Sys2Proof.Machine

/-! ## Reset, the handshake, and the host -/

/-- R44 to R47: after reset the phase is IDLE, `req_ready = 1`, `resp_valid = 0`, the request latch holds no value and
every response field holds no value. -/
def Obligations.ResetIsIdleAndHoldsNoValue : Prop :=
  State.reset.phase = .idle ∧ State.reset.reqReady = true ∧ State.reset.respValid = false ∧
  State.reset.req = none ∧ ∀ f, fieldValue State.reset.resp f = none ∧ readValue State.reset.resp f = none

/-- The run invariant holds after reset. -/
def Obligations.ResetSatisfiesInvariant : Prop :=
  Inv State.reset

/-- The run invariant is kept by every step, from every state that has it: in BUSY the request latch holds a request,
in DONE the response latch is the response of exactly the latched request (R22, R26, R42), and every delivered
response is what the host could see of some request's response (R198; `delivered` is the model's own record, log 4). -/
def Obligations.EveryStepKeepsInvariant : Prop :=
  ∀ s t : State, Inv s → step s = .next t → Inv t

/-- R189: no step changes MAX_LEN, and no step takes back or changes a response already delivered or a value already
read (logs 3 and 4). -/
def Obligations.StepKeepsConfigAndHistory : Prop :=
  ∀ s t : State, step s = .next t →
    t.config = s.config ∧ t.script = s.script.tail ∧ s.delivered <+: t.delivered ∧ s.readings <+: t.readings

/-- When the request latch holds r in phase BUSY, a step in which the environment neither resets, stalls nor reads runs
the instruction r decodes to, on the state whose environment has moved on (log 3). -/
def Obligations.StepRunsLatchedInstruction : Prop :=
  ∀ (s : State) (r : Request), s.phase = .busy → s.req = some r →
    (pins s).reset = false → (pins s).stall = false → (pins s).reads = [] →
    step s = exec (decode r) { s with script := s.script.tail }

/-- R26, Accept: in IDLE a presented request is latched whole and the phase becomes BUSY; without one the block does
not change. That a
request of more than MAX_LEN bytes is latched whole too is the model's choice (log 18: R32 against R49), as is the
script of pins (log 3). -/
def Obligations.AcceptLatchesPresentedRequest : Prop :=
  ∀ s : State, s.phase = .idle → (pins s).reset = false → (pins s).reads = [] →
    (∀ r, (pins s).request = some r →
      step s = .next { s with script := s.script.tail, phase := .busy, req := some r }) ∧
    ((pins s).request = none → step s = .next { s with script := s.script.tail })

/-- R26, R42, R192: in DONE an acknowledged response is delivered, the phase becomes IDLE and the response latch keeps
its contents; without an acknowledge the block stays in DONE, unchanged. -/
def Obligations.DeliverNeedsAcknowledge : Prop :=
  ∀ s : State, s.phase = .done → (pins s).reset = false → (pins s).reads = [] →
    ((pins s).respReady = true →
      step s = .next { s with script := s.script.tail, phase := .idle,
                              delivered := s.delivered ++ [visible s.resp] }) ∧
    ((pins s).respReady = false → step s = .next { s with script := s.script.tail })

/-- R185: reset, in any phase, leaves phase IDLE and both latches with no value. The model's choices (log 7): reset wins
over whatever else the step's pins hold, so that an acknowledge in the same step delivers nothing, and a read in the
same step faults (`HostReadsOnlyInWindow`), which is why the step reads nothing here. -/
def Obligations.ResetWorksInEveryPhase : Prop :=
  ∀ s : State, (pins s).reset = true → (pins s).reads = [] →
    step s = .next { s with script := s.script.tail, phase := .idle, req := none, resp := Response.empty }

/-- R32, R190: outside IDLE the presented request is not looked at, so a host that changes its request or its buffer
after Accept changes nothing. -/
def Obligations.PresentedRequestIgnoredAfterAccept : Prop :=
  ∀ (s : State) (p : Pins) (q : Option Request) (rest : List Pins), s.phase ≠ .idle →
    step { s with script := p :: rest } = step { s with script := { p with request := q } :: rest }

/-- R191: a host that reads fields, f first and then fs, faults outside DONE; in DONE it faults on f if f holds no value
it may read, and otherwise gets the value of f and goes on with the reads fs. A read in a step with reset asserted
faults in every phase, which is the model's choice (log 7), as are the reads of one step being a list taken in order
(log 3) and the record of what was read (log 4). -/
def Obligations.HostReadsOnlyInWindow : Prop :=
  ∀ (s : State) (p : Pins) (rest : List Pins) (f : RespField) (fs : List RespField), p.reads = f :: fs →
    (p.reset = true → step { s with script := p :: rest } = .fault .responseNotValid) ∧
    (p.reset = false → s.phase ≠ .done → step { s with script := p :: rest } = .fault .responseNotValid) ∧
    (p.reset = false → s.phase = .done → readValue s.resp f = none →
      step { s with script := p :: rest } = .fault (.fieldHoldsNoValue f)) ∧
    (∀ v, p.reset = false → s.phase = .done → readValue s.resp f = some v →
      step { s with script := p :: rest }
        = step { s with script := { p with reads := fs } :: rest, readings := s.readings ++ [(f, v)] })

/-- R60: reads have no side effect: whatever the host reads in a step, the block's state after it is what it would be
had the host read nothing. -/
def Obligations.ReadsHaveNoSideEffects : Prop :=
  ∀ (s t : State) (p : Pins) (rest : List Pins), step { s with script := p :: rest } = .next t →
    ∃ u, step { s with script := { p with reads := [] } :: rest } = .next u ∧ sameBlock t u ∧
      t.config = u.config ∧ t.delivered = u.delivered

/-- R165: no outcome of an operation stops the block: in a state of a run, a step in which the host reads no field
answers a next state; and no step is ever refused. -/
def Obligations.OnlyHostReadsStopTheMachine : Prop :=
  (∀ s : State, Inv s → (pins s).reads = [] → StepSafe s) ∧
  ∀ (s : State) (x : Refusal), step s ≠ .refused x

/-- R26, R196: a request accepted in IDLE is answered after any finite latency: n stalled steps, then Compute, then
Deliver, leave the block in IDLE with exactly this request's response delivered. That the
request latch then holds the whole of r, one of more than MAX_LEN bytes too, is the model's choice (log 18); the step
counts rest on its script (log 3) and the delivery on its record (log 4). -/
def Obligations.TransactionCompletesAfterAnyLatency : Prop :=
  ∀ (s : State) (r : Request) (n : Nat) (rest : List Pins), s.phase = .idle →
    s.script = { Pins.quiet with request := some r }
      :: (List.replicate n { Pins.quiet with stall := true }
          ++ Pins.quiet :: { Pins.quiet with respReady := true } :: rest) →
    core.run (n + 3) s
      = .next { s with phase := .idle, req := some r, resp := responseOf s.config r, script := rest,
                       delivered := s.delivered ++ [visible (responseOf s.config r)] }

/-- R63, R194, R198: transactions take effect in the order they are accepted and responses are delivered in the same
order, each the response of its own request alone. -/
def Obligations.ResponsesAreDeliveredInOrder : Prop :=
  ∀ (rs : List Request) (s : State) (rest : List Pins), s.phase = .idle →
    s.script = rs.flatMap transactionPins ++ rest →
    ∃ t : State, core.run (3 * rs.length) s = .next t ∧ t.phase = .idle ∧ t.script = rest ∧
      t.config = s.config ∧ t.readings = s.readings ∧
      t.delivered = s.delivered ++ rs.map fun r => visible (responseOf s.config r)

/-- R186 with R22 and R26: a reset in BUSY or DONE abandons the transaction in flight and no response is delivered for
it; a host that issues the request again is delivered the response that the cut transaction would have had. The counts
of one and four steps rest on the model's script of the environment (log 3), and what is delivered on its record
`delivered` (log 4). -/
def Obligations.ReissueAfterResetGivesSameResponse : Prop :=
  ∀ (s : State) (r : Request) (rest : List Pins), s.phase ≠ .idle → s.req = some r →
    s.script = { Pins.quiet with reset := true } :: (transactionPins r ++ rest) →
    ∃ u t : State, core.run 1 s = .next u ∧ u.respValid = false ∧ u.delivered = s.delivered ∧
      core.run 4 s = .next t ∧ t.phase = .idle ∧
      t.delivered = s.delivered ++ [visible (responseOf s.config r)]

/-! ## Encodings -/

/-- Words written out from the encodings of R67, R72 to R75 and R77 decode to the instructions they stand for. -/
def Obligations.KnownWordsDecode : Prop :=
  decode { op := 0b000, a := 0x7F, b := 0xAA, data := [0x7F] } = .buildCommand 0x7F [0x7F] ∧
  decode { op := 0b000, a := 0x31, b := 0x00, data := [0x01, 0x03, 0x2C, 0x05] }
    = .cmdParameterChange [0x01, 0x03, 0x2C, 0x05] ∧
  decode { op := 0b001, a := 0xFF, b := 0xFF, data := [1, 2, 3] } = .buildUniversalInquiry 3 ∧
  decode { op := 0b010, a := 0, b := 0, data := [0xF0, 0x52, 0x00, 0x58, 0x08, 0xF7] } = .vendorFrame 0x08 [0xF7] ∧
  decode { op := 0b010, a := 0, b := 0, data := [0xF0, 0x7E, 0x00, 0x06, 0x01, 0xF7] } = .universalInquiry ∧
  decode { op := 0b010, a := 0, b := 0, data := [0x90, 0x40, 0x7F] } = .channelMessage 0x90 0x40 0x7F [] ∧
  decode { op := 0b011, a := 0, b := 0, data := [0x40, 0x05] } = .unpack [0x40, 0x05] ∧
  decode { op := 0b100, a := 0x2C, b := 0x05, data := [] } = .combine 0x2C 0x05 0 ∧
  decode { op := 0b101, a := 0, b := 0, data := [0x00] } = .parsePatch [0x00] ∧
  decode { op := 0b110, a := 0, b := 0, data := [] } = .reserved6 ∧
  decode { op := 0b111, a := 0, b := 0, data := [] } = .reserved7

/-- Decoding the encoding of a well-formed instruction gives it back, with every operand at every value. -/
def Obligations.DecodeOfEncodeIsIdentity : Prop :=
  ∀ i : Instr, wellFormed i = true → decode (encode i) = i

/-- R69: every request decodes, and to a well-formed instruction: each request has exactly one name in the table. -/
def Obligations.EveryRequestDecodesWellFormed : Prop :=
  ∀ r : Request, wellFormed (decode r) = true

/-- R67: the op field alone selects the operation: each of its eight values gives the row the table gives it, with the
operands of R68. -/
def Obligations.OpFieldSelectsOperation : Prop :=
  ∀ r : Request,
    (r.op = 0 → decodeOp r = .buildCommand r.a r.data) ∧
    (r.op = 1 → decodeOp r = .buildUniversalInquiry r.data.length) ∧
    (r.op = 2 → decodeOp r = .classify r.data) ∧
    (r.op = 3 → decodeOp r = .unpack r.data) ∧
    (r.op = 4 → decodeOp r = .combine r.a r.b r.data.length) ∧
    (r.op = 5 → decodeOp r = .parsePatch r.data) ∧
    (r.op = 6 → decodeOp r = .reserved6) ∧
    (r.op = 7 → decodeOp r = .reserved7)

/-- The row a request is named by has the effect of the op row of R67: naming a frame or a catalog command (log 5)
changes no effect. -/
def Obligations.NamedRowHasOpRowEffect : Prop :=
  ∀ (r : Request) (s : State), exec (decode r) s = exec (decodeOp r) s

/-- R69, R173: a request's Compute step completes with the response of the three decode steps: ILLEGAL_OP for op 6 or
7; otherwise CAPACITY_EXCEEDED where `len > MAX_LEN`; otherwise the selected operation's response. -/
def Obligations.ComputeFollowsDecodeSteps : Prop :=
  ∀ (r : Request) (s : State), exec (decode r) s = .next (finished s (responseOf s.config r))

/-- R29 to R31, R68: two requests that agree on the operands their operation takes have the same effect, whatever
their ignored fields hold. Of the data it is enough that they agree on the length and on the MAX_LEN bytes R49's buffer
holds: that the latch keeps the rest of an over-long request (log 18) has no effect. -/
def Obligations.IgnoredFieldsHaveNoEffect : Prop :=
  ∀ (r q : Request) (s : State), r.op = q.op →
    (r.op = 0 → r.a = q.a ∧ sameBuffer s.config r q) →
    (r.op = 1 → r.len = q.len) →
    (r.op = 2 ∨ r.op = 3 ∨ r.op = 5 → sameBuffer s.config r q) →
    (r.op = 4 → r.a = q.a ∧ r.b = q.b ∧ r.len = q.len) →
    exec (decode r) s = exec (decode q) s

/-- R70, R71: the codes a host reads in `status` and `cls`. -/
def Obligations.StatusAndClsCodes : Prop :=
  (∀ r : Response,
    (r.status = some .ok → readValue r .status = some 0) ∧
    (r.status = some .insufficientData → readValue r .status = some 1) ∧
    (r.status = some .valueOutOfRange → readValue r .status = some 2) ∧
    (r.status = some .illegalOp → readValue r .status = some 3) ∧
    (r.status = some .capacityExceeded → readValue r .status = some 4) ∧
    (r.cls = some .noMatch → readValue r .cls = some 0) ∧
    (r.cls = some .vendor → readValue r .cls = some 1) ∧
    (r.cls = some .universal → readValue r .cls = some 2)) ∧
  ∀ (r : Response) (v : Nat),
    (readValue r .status = some v → v ≤ 4) ∧ (readValue r .cls = some v → v ≤ 2)

/-! ## All instructions -/

/-- The frame of every instruction: a Compute step writes the response latch and makes the phase DONE, and changes
nothing else: the request latch (R32), MAX_LEN (R189) and the host's side are unchanged. -/
def Obligations.ExecChangesOnlyResponseAndPhase : Prop :=
  ∀ (i : Instr) (s t : State), exec i s = .next t →
    t.phase = .done ∧ t.req = s.req ∧ t.config = s.config ∧ t.script = s.script ∧
    t.delivered = s.delivered ∧ t.readings = s.readings

/-- R22, R41: the response an instruction writes is a function of the instruction and MAX_LEN alone: nothing of the
phase, of either latch, or of an earlier transaction reaches it. -/
def Obligations.ResponseDependsOnRequestAlone : Prop :=
  ∀ (i : Instr) (s u : State), s.config = u.config →
    ∃ r : Response, exec i s = .next (finished s r) ∧ exec i u = .next (finished u r)

/-- R176: every failure is precise: a response is complete with OK, every field R40 lists for its operation holding a
value, or it holds a status other than OK and nothing else. -/
def Obligations.FailuresArePrecise : Prop :=
  ∀ (i : Instr) (s t : State), exec i s = .next t →
    (t.resp.status = some .ok ∧
      ∀ f, listed (opOf (encode i).op) t.resp f = true → (readValue t.resp f).isSome = true) ∨
    ∃ st, st ≠ .ok ∧ t.resp = statusOnly st

/-- R172: the statuses each operation can produce are exactly those of the table. -/
def Obligations.StatusesPerOperation : Prop :=
  ∀ (o : Op) (st : Status),
    mayReport o st = true ↔
      ∃ (r : Request) (s t : State), opOf r.op = o ∧ exec (decode r) s = .next t ∧ t.resp.status = some st

/-- R40, R41: after Compute the host may read exactly the fields R40 lists for the operation and its status: each of
them holds a value, and no other does. -/
def Obligations.ReadableFieldsAreTheListedOnes : Prop :=
  ∀ (r : Request) (s t : State) (f : RespField), exec (decode r) s = .next t →
    ((readValue t.resp f).isSome = true ↔ listed (opOf r.op) t.resp f = true)

/-- R34: BUILD_COMMAND produces at most `len + 6` bytes, which is the most any operation with that `len` produces;
UNPACK at most `len`; CLASSIFY at most `max(0, len - 6)`. R49: where MAX_LEN is finite, an operation that writes `out`
ran on at most MAX_LEN bytes and writes at most MAX_LEN + 6, and the index widths of the two buffers hold both
lengths. -/
def Obligations.OutLengthIsBounded : Prop :=
  ∀ (r : Request) (s t : State) (bytes : List Byte), exec (decode r) s = .next t → t.resp.out = some bytes →
    bytes.length ≤ r.len + 6 ∧ (r.op = 3 → bytes.length ≤ r.len) ∧ (r.op = 2 → bytes.length ≤ r.len - 6) ∧
    buffered s.config r.data = r.data ∧
    (∀ m, s.config.maxLen = some m → r.len ≤ m ∧ bytes.length ≤ m + 6) ∧
    (∀ w, lenW s.config = some w → r.len < 2 ^ w) ∧ (∀ w, outLenW s.config = some w → bytes.length < 2 ^ w)

/-- R170: a request of more than MAX_LEN bytes whose op is not reserved completes with CAPACITY_EXCEEDED and nothing
else, before the operation runs, whatever else is wrong with it; a request of at most MAX_LEN bytes never completes
with that status, and with `MAX_LEN = ∞` no request does. -/
def Obligations.CapacityIsCheckedFirst : Prop :=
  ∀ (r : Request) (s : State), r.op.toNat < 6 →
    (∀ m, s.config.maxLen = some m → m < r.data.length →
      exec (decode r) s = .next (finished s (statusOnly .capacityExceeded))) ∧
    (∀ t, withinMax s r.len → exec (decode r) s = .next t → t.resp.status ≠ some .capacityExceeded) ∧
    (∀ t, s.config.maxLen = none → exec (decode r) s = .next t → t.resp.status ≠ some .capacityExceeded)

/-- R171: op 6 and 7 complete with ILLEGAL_OP and nothing else, whatever the other fields and the length. -/
def Obligations.ReservedOpsAreIllegal : Prop :=
  ∀ s : State,
    exec .reserved6 s = .next (finished s (statusOnly .illegalOp)) ∧
    exec .reserved7 s = .next (finished s (statusOnly .illegalOp)) ∧
    ∀ r : Request, (r.op = 6 ∨ r.op = 7) → exec (decode r) s = .next (finished s (statusOnly .illegalOp))

/-! ## FrameCodec -/

/-- R101, R102: BUILD_COMMAND emits the vendor frame around func and payload, `len + 6` bytes, when all are at most
0x7F; otherwise it raises VALUE_OUT_OF_RANGE and writes no frame. -/
def Obligations.BuildCommandResult : Prop :=
  ∀ (func : Byte) (payload : List Byte) (s : State), withinMax s payload.length →
    ((func.toNat ≤ 0x7F ∧ ∀ x ∈ payload, x.toNat ≤ 0x7F) →
      ∃ bytes : List Byte, bytes = [0xF0, 0x52, 0x00, 0x58, func] ++ payload ++ [0xF7] ∧
        bytes.length = payload.length + 6 ∧
        exec (.buildCommand func payload) s
          = .next (finished s { Response.empty with status := some .ok, out := some bytes })) ∧
    ((0x7F < func.toNat ∨ ∃ x ∈ payload, 0x7F < x.toNat) →
      exec (.buildCommand func payload) s = .next (finished s (statusOnly .valueOutOfRange)))

/-- R98: `CMD_N [payload]` is BUILD_COMMAND with the catalog's func byte (R77), on every payload and in every state. -/
def Obligations.CatalogCommandsAreBuildCommand : Prop :=
  ∀ (p : List Byte) (s : State),
    exec (.cmdSendPatch p) s = exec (.buildCommand 0x08 p) s ∧
    exec (.cmdRequestPatch p) s = exec (.buildCommand 0x09 p) s ∧
    exec (.cmdSendCurrentPatch p) s = exec (.buildCommand 0x28 p) s ∧
    exec (.cmdRequestCurrentPatch p) s = exec (.buildCommand 0x29 p) s ∧
    exec (.cmdParameterChange p) s = exec (.buildCommand 0x31 p) s ∧
    exec (.cmdStorePatch p) s = exec (.buildCommand 0x32 p) s ∧
    exec (.cmdRequestCurrentProgram p) s = exec (.buildCommand 0x33 p) s ∧
    exec (.cmdEnableParameterChange p) s = exec (.buildCommand 0x50 p) s ∧
    exec (.cmdDisableParameterChange p) s = exec (.buildCommand 0x51 p) s

/-- R77, R98, R102: each catalog command completes with its frame on every payload of bytes at most 0x7F. -/
def Obligations.CatalogCommandsBuildTheirFrame : Prop :=
  ∀ (p : List Byte) (s : State), withinMax s p.length → (∀ x ∈ p, x.toNat ≤ 0x7F) →
    let frame (func : Byte) : State :=
      finished s { Response.empty with
        status := some .ok, out := some ([0xF0, 0x52, 0x00, 0x58, func] ++ p ++ [0xF7]) }
    exec (.cmdSendPatch p) s = .next (frame 0x08) ∧
    exec (.cmdRequestPatch p) s = .next (frame 0x09) ∧
    exec (.cmdSendCurrentPatch p) s = .next (frame 0x28) ∧
    exec (.cmdRequestCurrentPatch p) s = .next (frame 0x29) ∧
    exec (.cmdParameterChange p) s = .next (frame 0x31) ∧
    exec (.cmdStorePatch p) s = .next (frame 0x32) ∧
    exec (.cmdRequestCurrentProgram p) s = .next (frame 0x33) ∧
    exec (.cmdEnableParameterChange p) s = .next (frame 0x50) ∧
    exec (.cmdDisableParameterChange p) s = .next (frame 0x51)

/-- R99: PARAM_CHANGE e, p, v sends e, p and the two 7-bit digits of v, low digit first; an e or p above 127 completes
with VALUE_OUT_OF_RANGE; a v above 16383 cannot be expanded. -/
def Obligations.ParamChangeSendsValue14Digits : Prop :=
  ∀ (e p v : Nat) (s : State), withinMax s 4 →
    (e ≤ 127 → p ≤ 127 → v ≤ 16383 →
      ∃ i, paramChange e p v = some i ∧
        exec i s = .next (finished s { Response.empty with
          status := some .ok
          out := some [0xF0, 0x52, 0x00, 0x58, 0x31, BitVec.ofNat 8 e, BitVec.ofNat 8 p,
                       BitVec.ofNat 8 (v % 128), BitVec.ofNat 8 (v / 128), 0xF7] })) ∧
    (e ≤ 255 → p ≤ 255 → v ≤ 16383 → 127 < e ∨ 127 < p →
      ∃ i, paramChange e p v = some i ∧ exec i s = .next (finished s (statusOnly .valueOutOfRange))) ∧
    (16383 < v → paramChange e p v = none)

/-- R105: BUILD_UNIVERSAL_INQUIRY emits the fixed six bytes, and its only other status is CAPACITY_EXCEEDED. -/
def Obligations.BuildUniversalInquiryResult : Prop :=
  ∀ (len : Nat) (s : State),
    (withinMax s len →
      exec (.buildUniversalInquiry len) s
        = .next (finished s { Response.empty with
            status := some .ok, out := some [0xF0, 0x7E, 0x00, 0x06, 0x01, 0xF7] })) ∧
    (∀ m, s.config.maxLen = some m → m < len →
      exec (.buildUniversalInquiry len) s = .next (finished s (statusOnly .capacityExceeded)))

/-- R109, R110: a vendor frame gives cls VENDOR, func = D[4], subfunc_valid = 0 and the payload D[5 .. len-1), of
`max(0, len - 6)` bytes, whatever its last byte. -/
def Obligations.ClassifyVendorResult : Prop :=
  ∀ (func : Byte) (rest : List Byte) (s : State), withinMax s (5 + rest.length) →
    let t := finished s { Response.empty with
      status := some .ok, cls := some .vendor, func := some func, subfuncValid := some false,
      out := some (rest.take (rest.length - 1)) }
    exec (.vendorFrame func rest) s = .next t ∧
    exec (.classify (0xF0 :: 0x52 :: 0x00 :: 0x58 :: func :: rest)) s = .next t

/-- R110, R111: a universal frame gives cls UNIVERSAL, func = D[3], subfunc_valid = 1, subfunc = D[4] and the payload
D[5 .. len-1); so do general information (func 0x06, R88) and the six-byte inquiry (R117 b). -/
def Obligations.ClassifyUniversalResult : Prop :=
  ∀ (func subfunc : Byte) (rest : List Byte) (s : State), withinMax s (5 + rest.length) →
    let t (func subfunc : Byte) (payload : List Byte) := finished s { Response.empty with
      status := some .ok, cls := some .universal, func := some func, subfuncValid := some true,
      subfunc := some subfunc, out := some payload }
    exec (.universalFrame func subfunc rest) s = .next (t func subfunc (rest.take (rest.length - 1))) ∧
    exec (.classify (0xF0 :: 0x7E :: 0x00 :: func :: subfunc :: rest)) s
      = .next (t func subfunc (rest.take (rest.length - 1))) ∧
    exec (.generalInfo subfunc rest) s = .next (t 0x06 subfunc (rest.take (rest.length - 1))) ∧
    (withinMax s 6 → exec .universalInquiry s = .next (t 0x06 0x01 []))

/-- R112: where neither header test holds, CLASSIFY gives cls NOMATCH; with three bytes or more the channel message's
fields are written, with fewer chan_valid = 0 and no other field. (`out_len` is 0 and not readable, R113, log 8.) -/
def Obligations.ClassifyNoMatchResult : Prop :=
  ∀ s : State,
    (∀ (d0 d1 d2 : Byte) (rest : List Byte), withinMax s (3 + rest.length) →
      ¬ (d0 = 0xF0 ∧ d1 = 0x52 ∧ d2 = 0x00 ∧ rest.head? = some 0x58 ∧ 2 ≤ rest.length) →
      ¬ (d0 = 0xF0 ∧ d1 = 0x7E ∧ d2 = 0x00 ∧ 2 ≤ rest.length) →
      ∃ msgType channel : BitVec 4, msgType.toNat = d0.toNat / 16 ∧ channel.toNat = d0.toNat % 16 ∧
        let t := finished s { Response.empty with
          status := some .ok, cls := some .noMatch, out := some [], chanValid := some true,
          msgType := some msgType, channel := some channel, code := some d1, value := some d2 }
        exec (.channelMessage d0 d1 d2 rest) s = .next t ∧
        exec (.classify (d0 :: d1 :: d2 :: rest)) s = .next t) ∧
    (∀ bytes : List Byte, bytes.length < 3 → withinMax s bytes.length →
      exec (.classify bytes) s
        = .next (finished s { Response.empty with
            status := some .ok, cls := some .noMatch, out := some [], chanValid := some false }))

/-- R107, R108: CLASSIFY answers VENDOR exactly on five bytes or more that begin F0 52 00 58, UNIVERSAL exactly on five
bytes or more that begin F0 7E 00, and NOMATCH exactly on all other byte sequences (R112). -/
def Obligations.ClassifyTestsAreExact : Prop :=
  ∀ (bytes : List Byte) (s t : State), withinMax s bytes.length → exec (.classify bytes) s = .next t →
    (t.resp.cls = some .vendor ↔ 5 ≤ bytes.length ∧ bytes.take 4 = [0xF0, 0x52, 0x00, 0x58]) ∧
    (t.resp.cls = some .universal ↔ 5 ≤ bytes.length ∧ bytes.take 3 = [0xF0, 0x7E, 0x00]) ∧
    (t.resp.cls = some .noMatch ↔
      ¬ (5 ≤ bytes.length ∧ (bytes.take 4 = [0xF0, 0x52, 0x00, 0x58] ∨ bytes.take 3 = [0xF0, 0x7E, 0x00])))

/-- R114: CLASSIFY completes with OK for every length up to MAX_LEN and every byte value. -/
def Obligations.ClassifyNeverFails : Prop :=
  ∀ (bytes : List Byte) (s : State), withinMax s bytes.length →
    ∃ t : State, exec (.classify bytes) s = .next t ∧ t.resp.status = some .ok ∧ t.resp.cls.isSome = true

/-- R110: the last byte of a recognised frame is dropped whatever its value: two frames that differ in it alone have the
same response. -/
def Obligations.ClassifyIgnoresLastByte : Prop :=
  ∀ (bytes : List Byte) (x y : Byte) (s : State), 5 ≤ bytes.length →
    exec (.classify (bytes ++ [x])) s = exec (.classify (bytes ++ [y])) s

/-- R117 (a) and (b): CLASSIFY of a frame BUILD_COMMAND built gives VENDOR with func and payload unchanged; CLASSIFY of
the inquiry frame gives UNIVERSAL with func 0x06, subfunc 0x01 and an empty payload. -/
def Obligations.ClassifyInvertsBuild : Prop :=
  ∀ s u : State,
    (∀ (func : Byte) (payload : List Byte), func.toNat ≤ 0x7F → (∀ x ∈ payload, x.toNat ≤ 0x7F) →
      withinMax s (payload.length + 6) → withinMax u (payload.length + 6) →
      ∃ (t : State) (frame : List Byte), exec (.buildCommand func payload) s = .next t ∧ t.resp.out = some frame ∧
        exec (.classify frame) u = .next (finished u { Response.empty with
          status := some .ok, cls := some .vendor, func := some func, subfuncValid := some false,
          out := some payload })) ∧
    (withinMax s 0 → withinMax u 6 →
      ∃ (t : State) (frame : List Byte), exec (.buildUniversalInquiry 0) s = .next t ∧ t.resp.out = some frame ∧
        exec (.classify frame) u = .next (finished u { Response.empty with
          status := some .ok, cls := some .universal, func := some 0x06, subfuncValid := some true,
          subfunc := some 0x01, out := some [] }))

/-! ## ByteUnpacker -/

/-- R120, R121: UNPACK completes with OK on every stream; its output has
`7 * floor(len / 8) + max(0, (len mod 8) - 1)` bytes, and data byte i of group k gives output byte 7k + i, with bit 7
set by bit 6 - i of the group's mask byte. -/
def Obligations.UnpackResult : Prop :=
  ∀ (D : List Byte) (s : State), withinMax s D.length →
    ∃ out : List Byte,
      exec (.unpack D) s = .next (finished s { Response.empty with status := some .ok, out := some out }) ∧
      out.length = 7 * (D.length / 8) + (D.length % 8 - 1) ∧
      ∀ (k i : Nat) (m d : Byte), i < 7 → D[8 * k]? = some m → D[8 * k + 1 + i]? = some d →
        (out[7 * k + i]?).map BitVec.toNat = some (d.toNat ||| (((m.toNat >>> (6 - i)) &&& 1) <<< 7))

/-- R124: the streaming form, with phase counter 0 and any mask latch at the start, gives the same output. -/
def Obligations.StreamingUnpackerAgrees : Prop :=
  ∀ (D : List Byte) (m : Byte) (s : State), withinMax s D.length →
    exec (.unpack D) s
      = .next (finished s { Response.empty with status := some .ok, out := some (unpackStream 0 m D) })

/-- R129: UNPACK of PACK(u) is u, for every byte sequence u, and every byte of PACK(u) is transmission-legal. -/
def Obligations.UnpackInvertsPack : Prop :=
  ∀ (u : List Byte) (s : State), withinMax s (packBytes u).length →
    exec (.unpack (packBytes u)) s
      = .next (finished s { Response.empty with status := some .ok, out := some u }) ∧
    ∀ x ∈ packBytes u, x.toNat ≤ 0x7F

/-- R130: for UNPACK's output, 139 packed bytes are the fewest that give 121, 144 the fewest that give 126, and 138
give 120. -/
def Obligations.PackedPatchLengths : Prop :=
  ∀ (D out : List Byte) (s t : State), exec (.unpack D) s = .next t → t.resp.out = some out →
    (121 ≤ out.length ↔ 139 ≤ D.length) ∧
    (126 ≤ out.length ↔ 144 ≤ D.length) ∧
    (D.length = 139 → out.length = 121) ∧
    (D.length = 138 → out.length = 120) ∧
    (D.length = 144 → out.length = 126)

/-! ## ValueCombinator -/

/-- R132, R133: COMBINE of two bytes at most 0x7F writes `low | (high << 7)`; of any other it raises
VALUE_OUT_OF_RANGE and writes no value14. -/
def Obligations.CombineResult : Prop :=
  ∀ (low high : Byte) (len : Nat) (s : State), withinMax s len →
    (low.toNat ≤ 0x7F ∧ high.toNat ≤ 0x7F →
      ∃ v : BitVec 14, v.toNat = low.toNat ||| (high.toNat <<< 7) ∧
        exec (.combine low high len) s
          = .next (finished s { Response.empty with status := some .ok, value14 := some v })) ∧
    (0x7F < low.toNat ∨ 0x7F < high.toNat →
      exec (.combine low high len) s = .next (finished s (statusOnly .valueOutOfRange)))

/-- R134: COMBINE inverts the Value14 split for every v from 0 to 16383. -/
def Obligations.CombineInvertsSplit : Prop :=
  ∀ (v len : Nat) (s : State), v ≤ 16383 → withinMax s len →
    exec (.combine (BitVec.ofNat 8 (v &&& 0x7F)) (BitVec.ofNat 8 (v >>> 7)) len) s
      = .next (finished s { Response.empty with status := some .ok, value14 := some (BitVec.ofNat 14 v) })

/-! ## PatchParser -/

/-- R137, R139: PARSE_PATCH raises INSUFFICIENT_DATA where `len < 121`, and where `len < 18 * effect_count`; only
then. -/
def Obligations.ParsePatchLengthChecks : Prop :=
  ∀ (D : List Byte) (s : State), withinMax s D.length →
    (D.length < 121 → exec (.parsePatch D) s = .next (finished s (statusOnly .insufficientData))) ∧
    (∀ b109, D[109]? = some b109 → D.length < 18 * ((b109.toNat >>> 2) &&& 7) →
      exec (.parsePatch D) s = .next (finished s (statusOnly .insufficientData))) ∧
    (∀ b109, D[109]? = some b109 → 121 ≤ D.length → 18 * ((b109.toNat >>> 2) &&& 7) ≤ D.length →
      ∃ t, exec (.parsePatch D) s = .next t ∧ t.resp.status = some .ok)

/-- R138, R154, R155: PARSE_PATCH completes with OK, and effect_count, current_effect_index (between 2 and 5) and tempo
are their formulas of buffer bytes 108 to 110. -/
def Obligations.ParsePatchHeaderFields : Prop :=
  ∀ (D : List Byte) (s : State) (b108 b109 b110 : Byte),
    withinMax s D.length → D[108]? = some b108 → D[109]? = some b109 → D[110]? = some b110 →
    121 ≤ D.length → 18 * ((b109.toNat >>> 2) &&& 7) ≤ D.length →
    ∃ (r : Response) (count index : BitVec 3) (tempo : Byte),
      exec (.parsePatch D) s = .next (finished s r) ∧ r.status = some .ok ∧
      r.effectCount = some count ∧ count.toNat = (b109.toNat >>> 2) &&& 7 ∧
      r.currentEffectIndex = some index ∧ index.toNat = 5 - ((b108.toNat >>> 6) ||| (b109.toNat &&& 1)) ∧
      2 ≤ index.toNat ∧ index.toNat ≤ 5 ∧
      r.tempo = some tempo ∧ tempo.toNat = (b109.toNat >>> 5) ||| ((b110.toNat &&& 31) <<< 3)

/-- R140 to R153: in an OK PARSE_PATCH response slot e is valid exactly where `e < effect_count`, and every field of a
valid slot is its formula of the slot's bytes `D[18e + k]` and of bit e of buffer byte 108, with no bit lost. For slot 6
the clause about `type` is the model's choice (log 17): bits 0 and 1 of byte 109 are `type[6]` bits 3 and 4, against
R161 (c) and R160. -/
def Obligations.ParsePatchSlotFields : Prop :=
  ∀ (D : List Byte) (s t : State) (count : BitVec 3) (e : Fin 7),
    exec (.parsePatch D) s = .next t → t.resp.effectCount = some count →
    let b (i : Nat) : Nat := (D.getD i 0).toNat
    let d (k : Nat) : Nat := b (18 * e.val + k)
    ((slotOf t.resp e).isSome = true ↔ e.val < count.toNat) ∧
    ∀ slot, slotOf t.resp e = some slot →
      18 * e.val + 18 ≤ D.length ∧
      slot.enabled.toNat = d 0 &&& 1 ∧
      slot.effectType.toNat = (d 0 >>> 5) ||| ((d 1 &&& 15) <<< 3) ∧
      slot.category.toNat = (d 3 >>> 1) &&& 15 ∧
      slot.param0.toNat = (d 3 >>> 5) ||| (d 4 <<< 3) ||| ((d 5 &&& 3) <<< 11) ∧
      slot.param1.toNat = (d 5 >>> 2) ||| ((d 6 &&& 127) <<< 6) ∧
      slot.param2.toNat = (d 6 >>> 7) ||| (d 7 <<< 1) ||| ((d 8 &&& 15) <<< 9) ∧
      slot.param3.toNat = (d 8 >>> 4) ||| ((d 9 &&& 15) <<< 4) ∧
      slot.param4.toNat = (d 9 >>> 4) ||| ((d 10 &&& 15) <<< 4) ∧
      slot.param5.toNat = (d 10 >>> 4) ||| ((d 11 &&& 15) <<< 4) ∧
      slot.param6.toNat = (d 11 >>> 4) ||| ((d 12 &&& 15) <<< 4) ∧
      slot.param7.toNat = (d 12 >>> 4) ||| ((d 13 &&& 15) <<< 4) ∧
      slot.param8.toNat = d 16 ∧
      slot.dspFull.toNat = (b 108 >>> e.val) &&& 1

/-- R156, with the trim set of R157: the name of an OK PARSE_PATCH response is `D[111 .. 121)` without its trailing trim
bytes: it is a prefix of those ten bytes, its last byte is not in the trim set, and every byte after it is. The trim set
is PRESUMED (log 13): of it R157 says "the choice of which bytes count as ASCII whitespace is taken from general
knowledge, not from the source". -/
def Obligations.ParsePatchName : Prop :=
  ∀ (D : List Byte) (s t : State), exec (.parsePatch D) s = .next t → t.resp.status = some .ok →
    ∃ name dropped : List Byte, t.resp.name = some name ∧ (D.drop 111).take 10 = name ++ dropped ∧
      name.length + dropped.length = 10 ∧
      (∀ x ∈ dropped, x ∈ ([0x00, 0x09, 0x0A, 0x0B, 0x0C, 0x0D, 0x20] : List Byte)) ∧
      (∀ x, name.getLast? = some x → x ∉ ([0x00, 0x09, 0x0A, 0x0B, 0x0C, 0x0D, 0x20] : List Byte))

/-- R159: every field of an OK PARSE_PATCH response is its run of stream bits: slot fields in the slot's own 18 bytes,
dsp_full, effect_count and tempo in the buffer, and current_effect_index from buffer bits 870 to 872.
For slot 6 the clause about `type` is the model's choice (log 17): it makes bits 0 and 1 of byte 109 part of `type[6]`,
against R161 (c) and R160. -/
def Obligations.PatchFieldsAreStreamFields : Prop :=
  ∀ (D : List Byte) (s t : State), exec (.parsePatch D) s = .next t → t.resp.status = some .ok →
    (t.resp.effectCount.map BitVec.toNat = some (streamField D 874 3)) ∧
    (t.resp.tempo.map BitVec.toNat = some (streamField D 877 8)) ∧
    (t.resp.currentEffectIndex.map BitVec.toNat
      = some (5 - (streamField D 870 2 ||| streamField D 872 1))) ∧
    ∀ (e : Fin 7) (slot : Slot), slotOf t.resp e = some slot →
      let b := (D.drop (18 * e.val)).take 18
      slot.enabled.toNat = streamField b 0 1 ∧
      slot.effectType.toNat = streamField b 5 7 ∧
      slot.category.toNat = streamField b 25 4 ∧
      slot.param0.toNat = streamField b 29 13 ∧
      slot.param1.toNat = streamField b 42 13 ∧
      slot.param2.toNat = streamField b 55 13 ∧
      slot.param3.toNat = streamField b 68 8 ∧
      slot.param4.toNat = streamField b 76 8 ∧
      slot.param5.toNat = streamField b 84 8 ∧
      slot.param6.toNat = streamField b 92 8 ∧
      slot.param7.toNat = streamField b 100 8 ∧
      slot.param8.toNat = streamField b 128 8 ∧
      slot.dspFull.toNat = streamField D (864 + e.val) 1

/-- R58: a run of stream bits is a slice of the little-endian integer of the sequence:
`field(s, lo, w) = (N(s) >> lo) & (2^w - 1)`. -/
def Obligations.StreamFieldIsSliceOfInteger : Prop :=
  ∀ (s : List Byte) (lo w : Nat), streamField s lo w = (littleEndian s >>> lo) &&& (2 ^ w - 1)

/-- R160: no response field depends on a bit no field rule reads: two buffers of one length that agree on the bits used
for the first one's effect count have the same response. Where the effect count is 7, bit 1 of byte 109 counts as used,
by R142 for slot 6: R160 and R91 list it as not used, and the model follows the formula (log 17). -/
def Obligations.UnusedPatchBitsAreIgnored : Prop :=
  ∀ (D E : List Byte) (s : State) (b109 : Byte), D.length = E.length → D[109]? = some b109 →
    (∀ i, (D.getD i 0) &&& usedMask ((b109.toNat >>> 2) &&& 7) i
        = (E.getD i 0) &&& usedMask ((b109.toNat >>> 2) &&& 7) i) →
    exec (.parsePatch D) s = exec (.parsePatch E) s

/-- R162: bytes beyond the required length `max(121, 18 * effect_count)` are ignored. -/
def Obligations.PatchBytesPastRequiredLengthIgnored : Prop :=
  ∀ (D extra : List Byte) (s : State) (b109 : Byte), D[109]? = some b109 → 121 ≤ D.length →
    18 * ((b109.toNat >>> 2) &&& 7) ≤ D.length → withinMax s (D.length + extra.length) →
    exec (.parsePatch (D ++ extra)) s = exec (.parsePatch D) s

/-- R161: with effect_count 7, slot 6 overlaps the header: `enabled[6]` and `dsp_full[0]` are both bit 0 of buffer byte
108, `dsp_full[6]` is its bit 6, and `type[6]` bits 0..2 are its bits 5..7. -/
def Obligations.SlotSixOverlapsHeader : Prop :=
  ∀ (D : List Byte) (s t : State), exec (.parsePatch D) s = .next t → t.resp.effectCount = some 7 →
    ∃ (b108 : Byte) (slot0 slot6 : Slot), D[108]? = some b108 ∧
      slotOf t.resp 0 = some slot0 ∧ slotOf t.resp 6 = some slot6 ∧
      slot6.enabled = b108.toNat.testBit 0 ∧ slot0.dspFull = b108.toNat.testBit 0 ∧
      slot6.dspFull = b108.toNat.testBit 6 ∧ slot6.effectType.toNat % 8 = b108.toNat / 32

/-! ## Composition -/

/-- R92 with R117 and R129: a patch buffer that is packed, sent as SEND_CURRENT_PATCH, classified, routed by the host and
unpacked comes back unchanged, so PARSE_PATCH then parses the buffer that was sent. -/
def Obligations.PatchSurvivesTheWire : Prop :=
  ∀ (B : List Byte) (s : State), withinMax s ((packBytes B).length + 6) →
    ∃ (t1 t2 : State) (frame packed : List Byte),
      exec (.cmdSendCurrentPatch (packBytes B)) s = .next t1 ∧ t1.resp.out = some frame ∧
      exec (.classify frame) s = .next t2 ∧ routePatch t2.resp = some packed ∧
      exec (.unpack packed) s = .next (finished s { Response.empty with status := some .ok, out := some B })

/-- R79: a SEND_PATCH payload of ten bytes or more is its 5-byte header, its packed body and its 5-byte trailer, in
this order; and the body is what the host passes to UNPACK (R92). -/
def Obligations.SendPatchBodyIsRouted : Prop :=
  ∀ (p : List Byte) (last : Byte) (s : State), 10 ≤ p.length → withinMax s (6 + p.length) →
    ∃ (l : SendPatchLayout) (t : State), sendPatchLayout p = some l ∧ p = l.header ++ l.body ++ l.trailer ∧
      l.header.length = 5 ∧ l.trailer.length = 5 ∧
      exec (.vendorFrame 0x08 (p ++ [last])) s = .next t ∧ routePatch t.resp = some l.body
end

