-- ==== Sys2Proof/Laws/State.lean ====
section
/-! SUPPORT. One lemma per field per update of the state, each true by definition, so that no proof unfolds a record
update. -/

namespace Sys2Proof.Machine

@[simp] theorem accept_phase (s : State) (r : Request) : (accept s r).phase = .busy := rfl
@[simp] theorem accept_req (s : State) (r : Request) : (accept s r).req = some r := rfl
@[simp] theorem accept_resp (s : State) (r : Request) : (accept s r).resp = s.resp := rfl
@[simp] theorem accept_config (s : State) (r : Request) : (accept s r).config = s.config := rfl
@[simp] theorem accept_script (s : State) (r : Request) : (accept s r).script = s.script := rfl
@[simp] theorem accept_delivered (s : State) (r : Request) : (accept s r).delivered = s.delivered := rfl
@[simp] theorem accept_readings (s : State) (r : Request) : (accept s r).readings = s.readings := rfl

@[simp] theorem deliver_phase (s : State) : (deliver s).phase = .idle := rfl
@[simp] theorem deliver_req (s : State) : (deliver s).req = s.req := rfl
@[simp] theorem deliver_resp (s : State) : (deliver s).resp = s.resp := rfl
@[simp] theorem deliver_config (s : State) : (deliver s).config = s.config := rfl
@[simp] theorem deliver_script (s : State) : (deliver s).script = s.script := rfl
@[simp] theorem deliver_delivered (s : State) : (deliver s).delivered = s.delivered ++ [visible s.resp] := rfl
@[simp] theorem deliver_readings (s : State) : (deliver s).readings = s.readings := rfl

@[simp] theorem resetBlock_phase (s : State) : (resetBlock s).phase = .idle := rfl
@[simp] theorem resetBlock_req (s : State) : (resetBlock s).req = none := rfl
@[simp] theorem resetBlock_resp (s : State) : (resetBlock s).resp = Response.empty := rfl
@[simp] theorem resetBlock_config (s : State) : (resetBlock s).config = s.config := rfl
@[simp] theorem resetBlock_script (s : State) : (resetBlock s).script = s.script := rfl
@[simp] theorem resetBlock_delivered (s : State) : (resetBlock s).delivered = s.delivered := rfl
@[simp] theorem resetBlock_readings (s : State) : (resetBlock s).readings = s.readings := rfl

@[simp] theorem advance_phase (s : State) : (advance s).phase = s.phase := rfl
@[simp] theorem advance_req (s : State) : (advance s).req = s.req := rfl
@[simp] theorem advance_resp (s : State) : (advance s).resp = s.resp := rfl
@[simp] theorem advance_config (s : State) : (advance s).config = s.config := rfl
@[simp] theorem advance_script (s : State) : (advance s).script = s.script.tail := rfl
@[simp] theorem advance_delivered (s : State) : (advance s).delivered = s.delivered := rfl
@[simp] theorem advance_readings (s : State) : (advance s).readings = s.readings := rfl

@[simp] theorem finished_phase (s : State) (r : Response) : (finished s r).phase = .done := rfl
@[simp] theorem finished_req (s : State) (r : Response) : (finished s r).req = s.req := rfl
@[simp] theorem finished_resp (s : State) (r : Response) : (finished s r).resp = r := rfl
@[simp] theorem finished_config (s : State) (r : Response) : (finished s r).config = s.config := rfl
@[simp] theorem finished_script (s : State) (r : Response) : (finished s r).script = s.script := rfl
@[simp] theorem finished_delivered (s : State) (r : Response) : (finished s r).delivered = s.delivered := rfl
@[simp] theorem finished_readings (s : State) (r : Response) : (finished s r).readings = s.readings := rfl

@[simp] theorem empty_status : Response.empty.status = none := rfl
@[simp] theorem empty_out : Response.empty.out = none := rfl
@[simp] theorem empty_cls : Response.empty.cls = none := rfl
@[simp] theorem empty_func : Response.empty.func = none := rfl
@[simp] theorem empty_subfuncValid : Response.empty.subfuncValid = none := rfl
@[simp] theorem empty_subfunc : Response.empty.subfunc = none := rfl
@[simp] theorem empty_chanValid : Response.empty.chanValid = none := rfl
@[simp] theorem empty_msgType : Response.empty.msgType = none := rfl
@[simp] theorem empty_channel : Response.empty.channel = none := rfl
@[simp] theorem empty_code : Response.empty.code = none := rfl
@[simp] theorem empty_value : Response.empty.value = none := rfl
@[simp] theorem empty_value14 : Response.empty.value14 = none := rfl
@[simp] theorem empty_effectCount : Response.empty.effectCount = none := rfl
@[simp] theorem empty_currentEffectIndex : Response.empty.currentEffectIndex = none := rfl
@[simp] theorem empty_tempo : Response.empty.tempo = none := rfl
@[simp] theorem empty_name : Response.empty.name = none := rfl
@[simp] theorem empty_slots : Response.empty.slots = none := rfl

@[simp] theorem raise_status (st : Status) : (raise st).status = some st := rfl
@[simp] theorem raise_out (st : Status) : (raise st).out = none := rfl
@[simp] theorem raise_cls (st : Status) : (raise st).cls = none := rfl
@[simp] theorem raise_func (st : Status) : (raise st).func = none := rfl
@[simp] theorem raise_subfuncValid (st : Status) : (raise st).subfuncValid = none := rfl
@[simp] theorem raise_subfunc (st : Status) : (raise st).subfunc = none := rfl
@[simp] theorem raise_chanValid (st : Status) : (raise st).chanValid = none := rfl
@[simp] theorem raise_msgType (st : Status) : (raise st).msgType = none := rfl
@[simp] theorem raise_channel (st : Status) : (raise st).channel = none := rfl
@[simp] theorem raise_code (st : Status) : (raise st).code = none := rfl
@[simp] theorem raise_value (st : Status) : (raise st).value = none := rfl
@[simp] theorem raise_value14 (st : Status) : (raise st).value14 = none := rfl
@[simp] theorem raise_effectCount (st : Status) : (raise st).effectCount = none := rfl
@[simp] theorem raise_currentEffectIndex (st : Status) : (raise st).currentEffectIndex = none := rfl
@[simp] theorem raise_tempo (st : Status) : (raise st).tempo = none := rfl
@[simp] theorem raise_name (st : Status) : (raise st).name = none := rfl
@[simp] theorem raise_slots (st : Status) : (raise st).slots = none := rfl

end Sys2Proof.Machine
end

