-- ==== Sys2Proof/Laws/Ops.lean ====
section
/-! SUPPORT. For each shared operation, one lemma that says everything it can do. -/

namespace Sys2Proof.Machine

theorem raise_eq_statusOnly (st : Status) : raise st = statusOnly st := rfl

/-- Compute's completion is the next state with the response written and the phase DONE, and nothing else. -/
theorem complete_eq (s : State) (r : Response) : complete s r = .next (finished s r) := rfl

theorem exceedsMax_eq_false_iff (s : State) (len : Nat) :
    exceedsMax s.config len = false ↔ withinMax s len := by
  unfold exceedsMax withinMax
  cases s.config.maxLen <;> simp

theorem exceedsMax_eq_true_iff (s : State) (len : Nat) :
    exceedsMax s.config len = true ↔ ∃ m, s.config.maxLen = some m ∧ m < len := by
  unfold exceedsMax
  cases s.config.maxLen <;> simp

/-- The common check of R69: exactly one of two completions. -/
theorem compute_eq (s : State) (len : Nat) (r : Response) :
    compute s len r
      = .next (finished s (if exceedsMax s.config len then raise .capacityExceeded else r)) := by
  unfold compute
  split <;> simp [complete_eq]

theorem compute_within {s : State} {len : Nat} (h : withinMax s len) (r : Response) :
    compute s len r = .next (finished s r) := by
  simp [compute_eq, (exceedsMax_eq_false_iff s len).2 h]

theorem compute_exceeds {s : State} {len m : Nat} (hm : s.config.maxLen = some m) (h : m < len) (r : Response) :
    compute s len r = .next (finished s (raise .capacityExceeded)) := by
  simp [compute_eq, (exceedsMax_eq_true_iff s len).2 ⟨m, hm, h⟩]

/-- R49's buffer holds every byte of a request of at most MAX_LEN bytes. -/
theorem buffered_eq_self {s : State} {D : List Byte} (h : withinMax s D.length) : buffered s.config D = D := by
  unfold buffered
  split
  · rfl
  · next m hm => exact List.take_of_length_le (h m hm)

/-- R49's buffer never holds more than MAX_LEN bytes. -/
theorem buffered_length_le {c : Config} {m : Nat} (hm : c.maxLen = some m) (D : List Byte) :
    (buffered c D).length ≤ m := by
  simp [buffered, hm]

/-- The index width of the request buffer holds every length up to MAX_LEN (R49). -/
theorem lt_two_pow_lenW {s : State} {n w : Nat} (h : withinMax s n) (hw : lenW s.config = some w) : n < 2 ^ w := by
  obtain ⟨m, hm, rfl⟩ := Option.map_eq_some_iff.1 hw
  have := h m hm
  have := Nat.le_pow_clog (b := 2) (by decide) (m + 1)
  omega

/-- The index width of the response buffer holds every length up to MAX_LEN + 6 (R49). -/
theorem lt_two_pow_outLenW {s : State} {n k w : Nat} (h : withinMax s n) (hk : k ≤ n + 6)
    (hw : outLenW s.config = some w) : k < 2 ^ w := by
  obtain ⟨m, hm, rfl⟩ := Option.map_eq_some_iff.1 hw
  have := h m hm
  have := Nat.le_pow_clog (b := 2) (by decide) (m + 7)
  omega

/-- A host read answers a value exactly in DONE and on a readable field; otherwise it names its fault (R191). -/
theorem readField_cases (s : State) (f : RespField) :
    (∃ v, s.phase = .done ∧ readValue s.resp f = some v ∧ readField s f = .ok v) ∨
    (s.phase = .done ∧ readValue s.resp f = none ∧ readField s f = .error (.fieldHoldsNoValue f)) ∨
    (s.phase ≠ .done ∧ readField s f = .error .responseNotValid) := by
  unfold readField
  by_cases hp : s.phase = .done
  · cases readValue s.resp f <;> simp [hp]
  · simp [hp]

/-- The host's reads change the host's readings and nothing else (R60). -/
theorem hostReads_ok {s t : State} {fs : List RespField} (h : hostReads s fs = .ok t) :
    ∃ vs, t = { s with readings := s.readings ++ vs } := by
  induction fs generalizing s with
  | nil => exact ⟨[], by simp_all [hostReads]⟩
  | cons f fs ih =>
    unfold hostReads at h
    split at h
    · obtain ⟨vs, rfl⟩ := ih h
      exact ⟨_ :: vs, by simp; rfl⟩
    · cases h

@[simp] theorem hostReads_nil (s : State) : hostReads s [] = .ok s := rfl

/-- Outside DONE every read faults (R191). -/
theorem hostReads_outside {s : State} (hp : s.phase ≠ .done) (f : RespField) (fs : List RespField) :
    hostReads s (f :: fs) = .error .responseNotValid := by
  simp [hostReads, readField, hp]

/-- The pins of a state written out field by field. -/
@[simp] theorem pins_mk_cons (phase : Phase) (req : Option Request) (resp : Response) (c : Config) (p : Pins)
    (ps : List Pins) (d : List Response) (v : List (RespField × Nat)) :
    pins { phase := phase, req := req, resp := resp, config := c, script := p :: ps, delivered := d,
           readings := v } = p := rfl

/-- The pins of a state whose script is known. -/
theorem pins_of_script {s : State} {p : Pins} {ps : List Pins} (h : s.script = p :: ps) : pins s = p := by
  simp [pins, h]

end Sys2Proof.Machine
end

