-- ==== Sys2Proof/Laws/Operands.lean ====
section
/-! SUPPORT. The operand forms: the range check, reads of the request buffer, and the stream-bit view. -/

namespace Sys2Proof.Machine

theorem legal_iff (x : Byte) : legal x = true ↔ x.toNat ≤ 0x7F := by
  simp [legal]

theorem allLegal_iff (bytes : List Byte) : allLegal bytes = true ↔ ∀ x ∈ bytes, x.toNat ≤ 0x7F := by
  simp [allLegal, legal_iff]

/-- Within its bound a read of the buffer is the list's element, whatever default a total read would have. -/
theorem memRead_eq_getD (D : List Byte) (i : Nat) (h : i < D.length) (d : Byte) : memRead D i h = D.getD i d := by
  simp [memRead, h]

theorem slotAt_eq_getD (D : List Byte) (e : Nat) (h : 18 * e + 18 ≤ D.length) (k : Fin 18) (d : Byte) :
    slotAt D e h k = D.getD (18 * e + k.val) d :=
  memRead_eq_getD _ _ _ _

theorem streamField_zero (s : List Byte) (lo : Nat) : streamField s lo 0 = 0 := rfl

theorem streamField_succ (s : List Byte) (lo w : Nat) :
    streamField s lo (w + 1) = streamField s lo w + ((streamBit s (lo + w)).toNat <<< w) := rfl

/-- A field of w stream bits fits w bits. -/
theorem streamField_lt (s : List Byte) (lo w : Nat) : streamField s lo w < 2 ^ w := by
  induction w with
  | zero => simp [streamField]
  | succ w ih =>
    have hb : (streamBit s (lo + w)).toNat ≤ 1 := Bool.toNat_le _
    have hm : (streamBit s (lo + w)).toNat * 2 ^ w ≤ 1 * 2 ^ w := Nat.mul_le_mul_right _ hb
    rw [streamField_succ, Nat.shiftLeft_eq, Nat.pow_succ]
    omega

end Sys2Proof.Machine
end

