-- ==== Sys2Proof/Laws/Decode.lean ====
section
/-! SUPPORT. The tables the decoder and the encoder share. -/

namespace Sys2Proof

open Machine

@[simp] theorem opOf_opBits (o : Op) : opOf (opBits o) = o := by
  cases o <;> rfl

@[simp] theorem opBits_opOf (b : BitVec 3) : opBits (opOf b) = b := by
  revert b
  decide

/-- The reserved selects are 6 and 7 (R67). -/
theorem opOf_reserved_iff (b : BitVec 3) : (opOf b = .reserved6 ∨ opOf b = .reserved7) ↔ 6 ≤ b.toNat := by
  revert b
  decide

/-- No two catalog names share a code, so a code names its command. -/
@[simp] theorem commandOf_commandCode (n : CommandName) : commandOf (commandCode n) = some n := by
  cases n <;> rfl

/-- A code's name has that code. -/
theorem commandCode_of_commandOf {func : Byte} {n : CommandName} (h : commandOf func = some n) :
    commandCode n = func := by
  have := List.find?_some h
  simpa using this

/-- Every catalog code is transmission-legal. -/
theorem legal_commandCode (n : CommandName) : legal (commandCode n) = true := by
  cases n <;> rfl

end Sys2Proof
end

