-- ==== Sys2Proof/Laws/Step.lean ====
section
/-! SUPPORT. What a step can do, said once; every invariant is derived from this. -/

namespace Sys2Proof.Machine

/-- Everything a step that answers a next state can have done. -/
theorem step_cases {s t : State} (h : step s = .next t) :
    ((pins s).reset = true ∧ (pins s).reads = [] ∧ t = resetBlock (advance s)) ∨
    ((pins s).reset = false ∧ ∃ vs, ∃ u : State, u = { advance s with readings := s.readings ++ vs } ∧
      ((s.phase = .idle ∧ ∃ r, (pins s).request = some r ∧ t = accept u r) ∨
       (s.phase = .idle ∧ (pins s).request = none ∧ t = u) ∨
       (s.phase = .busy ∧ (pins s).stall = true ∧ t = u) ∨
       (s.phase = .busy ∧ (pins s).stall = false ∧ ∃ r, s.req = some r ∧ exec (decode r) u = .next t) ∨
       (s.phase = .done ∧ (pins s).respReady = true ∧ t = deliver u) ∨
       (s.phase = .done ∧ (pins s).respReady = false ∧ t = u))) := by
  unfold step at h
  split at h
  · next hr =>
    refine .inl ⟨hr, ?_⟩
    unfold resetStep at h
    split at h
    · next hn => exact ⟨hn, by cases h; rfl⟩
    · cases h
  · next hr =>
    refine .inr ⟨by simpa using hr, ?_⟩
    unfold runStep at h
    split at h
    · cases h
    · next u hu =>
      obtain ⟨vs, rfl⟩ := hostReads_ok hu
      refine ⟨vs, _, rfl, ?_⟩
      unfold phaseStep at h
      split at h
      · next hp =>
        have hp' : s.phase = .idle := hp
        unfold idleStep at h
        split at h
        · next r hq => exact .inl ⟨hp', r, hq, by cases h; rfl⟩
        · next hq => exact .inr (.inl ⟨hp', hq, by cases h; rfl⟩)
      · next hp =>
        have hp' : s.phase = .busy := hp
        unfold busyStep at h
        split at h
        · next hst => exact .inr (.inr (.inl ⟨hp', hst, by cases h; rfl⟩))
        · next hst =>
          split at h
          · next i hi =>
            obtain ⟨r, hreq, rfl⟩ := Option.map_eq_some_iff.1 hi
            exact .inr (.inr (.inr (.inl ⟨hp', by simpa using hst, r, hreq, h⟩)))
          · cases h
      · next hp =>
        have hp' : s.phase = .done := hp
        unfold doneStep at h
        split at h
        · next ha => exact .inr (.inr (.inr (.inr (.inl ⟨hp', ha, by cases h; rfl⟩))))
        · next ha => exact .inr (.inr (.inr (.inr (.inr ⟨hp', by simpa using ha, by cases h; rfl⟩))))

end Sys2Proof.Machine
end

