-- ==== Sys2Proof/Laws/Exec.lean ====
section
/-! SUPPORT. The meaning of each instruction as the shared operation it is: the common check of R69 around one response,
or, for the reserved selects, a completion. Later proofs cite these and do not unfold a meaning. -/

namespace Sys2Proof.Machine

theorem exec_buildCommand (func : Byte) (payload : List Byte) (s : State) :
    exec (.buildCommand func payload) s = compute s payload.length (commandResponse func payload) := rfl
theorem exec_buildUniversalInquiry (len : Nat) (s : State) :
    exec (.buildUniversalInquiry len) s = compute s len (outResponse inquiryBytes) := rfl
theorem exec_classify (bytes : List Byte) (s : State) :
    exec (.classify bytes) s = compute s bytes.length (classifyResponse bytes) := rfl
theorem exec_unpack (stream : List Byte) (s : State) :
    exec (.unpack stream) s = compute s stream.length (outResponse (unpackBytes stream)) := rfl
theorem exec_combine (low high : Byte) (len : Nat) (s : State) :
    exec (.combine low high len) s = compute s len (combineResponse low high) := rfl
theorem exec_parsePatch (buffer : List Byte) (s : State) :
    exec (.parsePatch buffer) s = compute s buffer.length (patchResponse buffer) := rfl
theorem exec_vendorFrame (func : Byte) (rest : List Byte) (s : State) :
    exec (.vendorFrame func rest) s = compute s (vendorBytes func rest).length (classifyResponse (vendorBytes func rest)) := rfl
theorem exec_universalFrame (func subfunc : Byte) (rest : List Byte) (s : State) :
    exec (.universalFrame func subfunc rest) s = compute s (universalBytes func subfunc rest).length (classifyResponse (universalBytes func subfunc rest)) := rfl
theorem exec_universalInquiry (s : State) :
    exec .universalInquiry s = compute s inquiryBytes.length (classifyResponse inquiryBytes) := rfl
theorem exec_generalInfo (subfunc : Byte) (rest : List Byte) (s : State) :
    exec (.generalInfo subfunc rest) s = compute s (universalBytes generalInfoFunc subfunc rest).length (classifyResponse (universalBytes generalInfoFunc subfunc rest)) := rfl
theorem exec_channelMessage (status data1 data2 : Byte) (rest : List Byte) (s : State) :
    exec (.channelMessage status data1 data2 rest) s = compute s (status :: data1 :: data2 :: rest).length (classifyResponse (status :: data1 :: data2 :: rest)) := rfl
theorem exec_cmdSendPatch (payload : List Byte) (s : State) :
    exec (.cmdSendPatch payload) s = compute s payload.length (commandResponse (commandCode .sendPatch) payload) := rfl
theorem exec_cmdRequestPatch (payload : List Byte) (s : State) :
    exec (.cmdRequestPatch payload) s = compute s payload.length (commandResponse (commandCode .requestPatch) payload) := rfl
theorem exec_cmdSendCurrentPatch (payload : List Byte) (s : State) :
    exec (.cmdSendCurrentPatch payload) s = compute s payload.length (commandResponse (commandCode .sendCurrentPatch) payload) := rfl
theorem exec_cmdRequestCurrentPatch (payload : List Byte) (s : State) :
    exec (.cmdRequestCurrentPatch payload) s = compute s payload.length (commandResponse (commandCode .requestCurrentPatch) payload) := rfl
theorem exec_cmdParameterChange (payload : List Byte) (s : State) :
    exec (.cmdParameterChange payload) s = compute s payload.length (commandResponse (commandCode .parameterChange) payload) := rfl
theorem exec_cmdStorePatch (payload : List Byte) (s : State) :
    exec (.cmdStorePatch payload) s = compute s payload.length (commandResponse (commandCode .storePatch) payload) := rfl
theorem exec_cmdRequestCurrentProgram (payload : List Byte) (s : State) :
    exec (.cmdRequestCurrentProgram payload) s = compute s payload.length (commandResponse (commandCode .requestCurrentProgram) payload) := rfl
theorem exec_cmdEnableParameterChange (payload : List Byte) (s : State) :
    exec (.cmdEnableParameterChange payload) s = compute s payload.length (commandResponse (commandCode .enableParameterChange) payload) := rfl
theorem exec_cmdDisableParameterChange (payload : List Byte) (s : State) :
    exec (.cmdDisableParameterChange payload) s = compute s payload.length (commandResponse (commandCode .disableParameterChange) payload) := rfl
theorem exec_reserved6 (s : State) : exec .reserved6 s = complete s (raise .illegalOp) := rfl
theorem exec_reserved7 (s : State) : exec .reserved7 s = complete s (raise .illegalOp) := rfl

end Sys2Proof.Machine
end

