-- ==== Sys2Proof/Laws/PerInstr.lean ====
section
/-! SUPPORT. A statement about every instruction as syntax, one lemma per constructor: the operation select its
encoding carries (R67). -/

namespace Sys2Proof.Laws.OpField

/-- The operation of R67 that a row is carried by: the op rows by their own, the frame rows by CLASSIFY (R106), the
catalog commands by BUILD_COMMAND (R98). -/
def carrier : Instr → Op
  | .buildCommand _ _ => .buildCommand
  | .buildUniversalInquiry _ => .buildUniversalInquiry
  | .classify _ => .classify
  | .unpack _ => .unpack
  | .combine _ _ _ => .combine
  | .parsePatch _ => .parsePatch
  | .reserved6 => .reserved6
  | .reserved7 => .reserved7
  | .vendorFrame _ _ => .classify
  | .universalFrame _ _ _ => .classify
  | .universalInquiry => .classify
  | .generalInfo _ _ => .classify
  | .channelMessage _ _ _ _ => .classify
  | .cmdSendPatch _ => .buildCommand
  | .cmdRequestPatch _ => .buildCommand
  | .cmdSendCurrentPatch _ => .buildCommand
  | .cmdRequestCurrentPatch _ => .buildCommand
  | .cmdParameterChange _ => .buildCommand
  | .cmdStorePatch _ => .buildCommand
  | .cmdRequestCurrentProgram _ => .buildCommand
  | .cmdEnableParameterChange _ => .buildCommand
  | .cmdDisableParameterChange _ => .buildCommand

/-- The encoding of an instruction selects the operation that carries its row. -/
def Statement (i : Instr) : Prop :=
  opOf (encode i).op = carrier i

theorem buildCommand (func : Byte) (payload : List Byte) : Statement (.buildCommand func payload) := rfl
theorem buildUniversalInquiry (len : Nat) : Statement (.buildUniversalInquiry len) := rfl
theorem classify (bytes : List Byte) : Statement (.classify bytes) := rfl
theorem unpack (stream : List Byte) : Statement (.unpack stream) := rfl
theorem combine (low high : Byte) (len : Nat) : Statement (.combine low high len) := rfl
theorem parsePatch (buffer : List Byte) : Statement (.parsePatch buffer) := rfl
theorem reserved6 : Statement .reserved6 := rfl
theorem reserved7 : Statement .reserved7 := rfl
theorem vendorFrame (func : Byte) (rest : List Byte) : Statement (.vendorFrame func rest) := rfl
theorem universalFrame (func subfunc : Byte) (rest : List Byte) : Statement (.universalFrame func subfunc rest) := rfl
theorem universalInquiry : Statement .universalInquiry := rfl
theorem generalInfo (subfunc : Byte) (rest : List Byte) : Statement (.generalInfo subfunc rest) := rfl
theorem channelMessage (status data1 data2 : Byte) (rest : List Byte) : Statement (.channelMessage status data1 data2 rest) := rfl
theorem cmdSendPatch (payload : List Byte) : Statement (.cmdSendPatch payload) := rfl
theorem cmdRequestPatch (payload : List Byte) : Statement (.cmdRequestPatch payload) := rfl
theorem cmdSendCurrentPatch (payload : List Byte) : Statement (.cmdSendCurrentPatch payload) := rfl
theorem cmdRequestCurrentPatch (payload : List Byte) : Statement (.cmdRequestCurrentPatch payload) := rfl
theorem cmdParameterChange (payload : List Byte) : Statement (.cmdParameterChange payload) := rfl
theorem cmdStorePatch (payload : List Byte) : Statement (.cmdStorePatch payload) := rfl
theorem cmdRequestCurrentProgram (payload : List Byte) : Statement (.cmdRequestCurrentProgram payload) := rfl
theorem cmdEnableParameterChange (payload : List Byte) : Statement (.cmdEnableParameterChange payload) := rfl
theorem cmdDisableParameterChange (payload : List Byte) : Statement (.cmdDisableParameterChange payload) := rfl

end Sys2Proof.Laws.OpField
end

