-- ==== Sys2Proof/Laws/Responses.lean ====
section
/-! SUPPORT. The responses each operation can have, one lemma per operation. -/

namespace Sys2Proof.Machine

/-- BUILD_COMMAND answers its frame or VALUE_OUT_OF_RANGE (R101, R102). -/
theorem commandResponse_cases (func : Byte) (payload : List Byte) :
    commandResponse func payload = outResponse (vendorFrameOf func payload) ∨
      commandResponse func payload = raise .valueOutOfRange := by
  unfold commandResponse
  split
  · exact .inl rfl
  · exact .inr rfl

/-- CLASSIFY answers one of its four results (R113). -/
theorem classifyResponse_cases (D : List Byte) :
    (∃ func rest, classifyResponse D = vendorResult func rest) ∨
      (∃ func subfunc rest, classifyResponse D = universalResult func subfunc rest) ∨
      (∃ d0 d1 d2, classifyResponse D = channelResult d0 d1 d2) ∨ classifyResponse D = shortResult := by
  unfold classifyResponse
  repeat' split
  · exact .inl ⟨_, _, rfl⟩
  · exact .inr (.inl ⟨_, _, _, rfl⟩)
  · exact .inr (.inr (.inl ⟨_, _, _, rfl⟩))
  · exact .inr (.inr (.inl ⟨_, _, _, rfl⟩))
  · exact .inr (.inr (.inr rfl))

/-- COMBINE answers its Value14 or VALUE_OUT_OF_RANGE (R132, R133). -/
theorem combineResponse_cases (low high : Byte) :
    combineResponse low high
        = { Response.empty with status := some .ok, value14 := some (combineValue low high) } ∨
      combineResponse low high = raise .valueOutOfRange := by
  unfold combineResponse
  split
  · exact .inl rfl
  · exact .inr rfl

/-- PARSE_PATCH answers its Patch or INSUFFICIENT_DATA (R137, R139, R158). -/
theorem patchResponse_cases (D : List Byte) :
    (∃ h1 h2, patchResponse D = parsedPatch D h1 h2) ∨ patchResponse D = raise .insufficientData := by
  unfold patchResponse
  by_cases h1 : 121 ≤ D.length
  · rw [dif_pos h1]
    by_cases h2 : 18 * (effectCountOf (memRead D 109 (by omega))).toNat ≤ D.length
    · exact .inl ⟨h1, h2, dif_pos h2⟩
    · exact .inr (dif_neg h2)
  · exact .inr (dif_neg h1)

/-- A result slot of a parsed Patch is its slot entry (R140). -/
theorem slotOf_parsedPatch (D : List Byte) (h1 : 121 ≤ D.length)
    (h2 : 18 * (effectCountOf (memRead D 109 (by omega))).toNat ≤ D.length) (e : Fin 7) :
    slotOf (parsedPatch D h1 h2) e
      = slotEntry D (memRead D 108 (by omega)) (effectCountOf (memRead D 109 (by omega))).toNat h2 e := by
  unfold slotOf parsedPatch
  fin_cases e <;> rfl

end Sys2Proof.Machine
end

