-- ==== Sys2Proof/Laws/Unpack.lean ====
section
/-! SUPPORT. UNPACK and PACK group by group, and the bit arithmetic of disjoint ORs. -/

namespace Sys2Proof.Machine

/-- An OR with a value shifted past the other operand's bits is a sum. -/
theorem or_shiftLeft_eq_add (a b n : Nat) (h : a < 2 ^ n) : a ||| (b <<< n) = a + b * 2 ^ n := by
  rw [Nat.or_comm, ← Nat.shiftLeft_add_eq_or_of_lt h, Nat.shiftLeft_eq, Nat.add_comm]

theorem recoverFrom_length (m : Byte) (i : Nat) (ds : List Byte) : (recoverFrom m i ds).length = ds.length := by
  induction ds generalizing i with
  | nil => rfl
  | cons d ds ih => simp [recoverFrom, ih]

theorem recoverFrom_getElem? (m : Byte) (i j : Nat) (ds : List Byte) :
    (recoverFrom m i ds)[j]? = (ds[j]?).map (recovered m (i + j)) := by
  induction ds generalizing i j with
  | nil => rfl
  | cons d ds ih =>
    cases j with
    | zero => simp [recoverFrom]
    | succ j => simp [recoverFrom, ih, Nat.add_right_comm, ← Nat.add_assoc]

/-- A group gives one byte fewer than it has (R120). -/
theorem unpackGroup_length (g : List Byte) : (unpackGroup g).length = g.length - 1 := by
  cases g <;> simp [unpackGroup, recoverFrom_length]

@[simp] theorem unpackBytes_nil : unpackBytes [] = [] := rfl

@[simp] theorem packBytes_nil : packBytes [] = [] := rfl

/-- The first group, then the rest of the stream (R119). -/
theorem unpackBytes_of_ne_nil (D : List Byte) (h : D ≠ []) :
    unpackBytes D = unpackGroup (D.take 8) ++ unpackBytes (D.drop 8) := by
  have hl : 0 < D.length := List.length_pos_iff.2 h
  have hn : groupCount D.length = groupCount (D.drop 8).length + 1 := by simp [groupCount]; omega
  have hf : (fun k => unpackGroup (groupAt D (k + 1))) = fun k => unpackGroup (groupAt (D.drop 8) k) := by
    funext k
    simp only [groupAt, List.drop_drop]
    rw [Nat.mul_succ, Nat.add_comm]
  rw [unpackBytes, hn, List.range_succ_eq_map, List.flatMap_cons, List.flatMap_map]
  exact congrArg (unpackGroup (D.take 8) ++ ·) (congrArg (List.flatMap · _) hf)

/-- The first chunk, then the rest of the sequence (R129). -/
theorem packBytes_of_ne_nil (u : List Byte) (h : u ≠ []) :
    packBytes u = packChunk (u.take 7) ++ packBytes (u.drop 7) := by
  have hl : 0 < u.length := List.length_pos_iff.2 h
  have hn : (u.length + 6) / 7 = ((u.drop 7).length + 6) / 7 + 1 := by simp; omega
  have hf : (fun k => packChunk ((u.drop (7 * (k + 1))).take 7)) = fun k => packChunk (((u.drop 7).drop (7 * k)).take 7) := by
    funext k
    rw [List.drop_drop, Nat.mul_succ, Nat.add_comm]
  rw [packBytes, hn, List.range_succ_eq_map, List.flatMap_cons, List.flatMap_map]
  exact congrArg (packChunk (u.take 7) ++ ·) (congrArg (List.flatMap · _) hf)

theorem packChunk_length (c : List Byte) : (packChunk c).length = c.length + 1 := by
  simp [packChunk]

end Sys2Proof.Machine
end

