-- ==== Sys2Proof/Tests/Slice0.lean ====
section
/-! SUPPORT. The model's own tests: ill-formed terms, words written out from the spec's encodings, one-step results of
the spec's test vectors (95_test_vectors.md), and a witness for every statement that has hypotheses. -/

namespace Sys2Proof.Tests

open Sys2Proof.Machine

/-! ## Helpers -/

/-- The reset state with MAX_LEN = m. -/
def limited (m : Nat) : State := { State.reset with config := { maxLen := some m } }

/-- Phase BUSY with a request latched and the environment of the next step. -/
def busy (r : Request) (p : Pins) : State :=
  { State.reset with phase := .busy, req := some r, script := [p] }

/-- Phase DONE with a request latched, its response, and the environment of the next step. -/
def done (r : Request) (p : Pins) : State :=
  { State.reset with phase := .done, req := some r, resp := responseOf Config.unbounded r, script := [p] }

/-- Phase IDLE with the environment of the next step. -/
def idle (p : Pins) : State := { State.reset with script := [p] }

/-- What a request completes with, with no bound on its length. -/
def answer (r : Request) : Response := execResponse (decode r) State.reset

/-- A CLASSIFY request with the ignored fields set. -/
def received (bytes : List Byte) : Request := { op := 2, a := 0xAA, b := 0x55, data := bytes }

/-- Z(n) of the test vectors: n zero bytes. -/
def zeros (n : Nat) : List Byte := List.replicate n 0

/-- A COMBINE request: CB5 of the test vectors. -/
def combine684 : Request := { op := 4, a := 0x2C, b := 0x05, data := [] }

/-- A whole general-information frame: K16 of the test vectors. -/
def infoFrame : List Byte :=
  [0xF0, 0x7E, 0x00, 0x06, 0x02, 0x52, 0x58, 0x00, 0x00, 0x31, 0x2E, 0x32, 0x30, 0xF7]

theorem test_withinMax_reset (n : Nat) : withinMax State.reset n := fun _ h => nomatch h

theorem test_withinMax_limit (m : Nat) : withinMax (limited m) m := fun _ h => by cases h; exact Nat.le_refl _

theorem test_not_withinMax_past_limit (m : Nat) : ¬ withinMax (limited m) (m + 1) :=
  fun h => Nat.not_succ_le_self m (h m rfl)

/-! ## Ill-formed terms: one for each check -/

theorem test_illFormed_buildCommand_in_catalog : wellFormed (.buildCommand 0x31 [1, 3, 0x2C, 5]) = false := by decide
theorem test_illFormed_classify_three_bytes : wellFormed (.classify [0x90, 0x40, 0x7F]) = false := by decide
theorem test_illFormed_universal_general_info : wellFormed (.universalFrame 0x06 0x02 [0xF7]) = false := by decide
theorem test_illFormed_general_info_inquiry : wellFormed (.generalInfo 0x01 [0xF7]) = false := by decide
theorem test_illFormed_channel_vendor : wellFormed (.channelMessage 0xF0 0x52 0x00 [0x58, 0x08]) = false := by decide
theorem test_illFormed_channel_universal :
    wellFormed (.channelMessage 0xF0 0x7E 0x00 [0x06, 0x01]) = false := by decide

/-! ## Decoding: words written out from R67, R72 to R75, R77 and R88 -/

theorem test_decode_buildCommand :
    decode { op := 0b000, a := 0x7F, b := 0xFF, data := [0x7F] } = .buildCommand 0x7F [0x7F] := by decide
theorem test_decode_buildUniversalInquiry :
    decode { op := 0b001, a := 0xFF, b := 0xFF, data := [1, 2, 3] } = .buildUniversalInquiry 3 := by decide
theorem test_decode_classify :
    decode { op := 0b010, a := 0, b := 0, data := [0xF0, 0x52] } = .classify [0xF0, 0x52] := by decide
theorem test_decode_unpack :
    decode { op := 0b011, a := 1, b := 2, data := [0x40, 0x05] } = .unpack [0x40, 0x05] := by decide
theorem test_decode_combine :
    decode { op := 0b100, a := 0x2C, b := 0x05, data := [9] } = .combine 0x2C 0x05 1 := by decide
theorem test_decode_parsePatch :
    decode { op := 0b101, a := 1, b := 2, data := [3, 4] } = .parsePatch [3, 4] := by decide
theorem test_decode_reserved6 : decode { op := 0b110, a := 1, b := 2, data := [3] } = .reserved6 := by decide
theorem test_decode_reserved7 : decode { op := 0b111, a := 1, b := 2, data := [3] } = .reserved7 := by decide
theorem test_decode_vendorFrame :
    decode (received [0xF0, 0x52, 0x00, 0x58, 0x28, 0x10, 0xF7]) = .vendorFrame 0x28 [0x10, 0xF7] := by decide
theorem test_decode_universalFrame :
    decode (received [0xF0, 0x7E, 0x00, 0x09, 0x01, 0xF7]) = .universalFrame 0x09 0x01 [0xF7] := by decide
theorem test_decode_universalInquiry :
    decode (received [0xF0, 0x7E, 0x00, 0x06, 0x01, 0xF7]) = .universalInquiry := by decide
theorem test_decode_generalInfo :
    decode (received infoFrame)
      = .generalInfo 0x02 [0x52, 0x58, 0x00, 0x00, 0x31, 0x2E, 0x32, 0x30, 0xF7] := by decide
theorem test_decode_generalInfo_not_inquiry :
    decode (received [0xF0, 0x7E, 0x00, 0x06, 0x01, 0x00, 0xF7]) = .generalInfo 0x01 [0x00, 0xF7] := by decide
theorem test_decode_channelMessage :
    decode (received [0xB3, 0x07, 0x64]) = .channelMessage 0xB3 0x07 0x64 [] := by decide
theorem test_decode_channelMessage_short_header :
    decode (received [0xF0, 0x52, 0x00, 0x58]) = .channelMessage 0xF0 0x52 0x00 [0x58] := by decide
theorem test_decode_channelMessage_wrong_header :
    decode (received [0xF0, 0x7E, 0x7F, 0x06, 0x01, 0xF7]) = .channelMessage 0xF0 0x7E 0x7F [0x06, 0x01, 0xF7] := by
  decide
theorem test_decode_cmdSendPatch :
    decode { op := 0b000, a := 0x08, b := 0, data := [1] } = .cmdSendPatch [1] := by decide
theorem test_decode_cmdRequestPatch :
    decode { op := 0b000, a := 0x09, b := 0, data := [1] } = .cmdRequestPatch [1] := by decide
theorem test_decode_cmdSendCurrentPatch :
    decode { op := 0b000, a := 0x28, b := 0, data := [1] } = .cmdSendCurrentPatch [1] := by decide
theorem test_decode_cmdRequestCurrentPatch :
    decode { op := 0b000, a := 0x29, b := 0, data := [] } = .cmdRequestCurrentPatch [] := by decide
theorem test_decode_cmdParameterChange :
    decode { op := 0b000, a := 0x31, b := 0, data := [1, 3, 0x2C, 5] }
      = .cmdParameterChange [1, 3, 0x2C, 5] := by decide
theorem test_decode_cmdStorePatch :
    decode { op := 0b000, a := 0x32, b := 0, data := [0, 0, 0, 5, 0, 0, 0, 0, 0] }
      = .cmdStorePatch [0, 0, 0, 5, 0, 0, 0, 0, 0] := by decide
theorem test_decode_cmdRequestCurrentProgram :
    decode { op := 0b000, a := 0x33, b := 0, data := [] } = .cmdRequestCurrentProgram [] := by decide
theorem test_decode_cmdEnableParameterChange :
    decode { op := 0b000, a := 0x50, b := 0, data := [] } = .cmdEnableParameterChange [] := by decide
theorem test_decode_cmdDisableParameterChange :
    decode { op := 0b000, a := 0x51, b := 0, data := [] } = .cmdDisableParameterChange [] := by decide

/-! ## The opcode table's words -/

theorem test_tableWord_op : decodeTableWord 8 0x5 = some (.parsePatch []) := by decide
theorem test_tableWord_vendorFrame : decodeTableWord 32 0xF0520058 = some (.vendorFrame 0 [0]) := by decide
theorem test_tableWord_universalFrame : decodeTableWord 24 0xF07E00 = some (.universalFrame 0 0 [0]) := by decide
theorem test_tableWord_universalInquiry : decodeTableWord 48 0xF07E000601F7 = some .universalInquiry := by decide
theorem test_tableWord_generalInfo : decodeTableWord 32 0xF07E0006 = some (.generalInfo 0 [0]) := by decide
theorem test_tableWord_channelMessage : decodeTableWord 0 0 = some (.channelMessage 0 0 0 []) := by decide
theorem test_tableWord_command : decodeTableWord 40 0xF052005832 = some (.cmdStorePatch []) := by decide

/-- The word placed by `withFetchWord` is what the very next step from reset runs. -/
theorem test_withFetchWord_runs :
    step (State.reset.withFetchWord 40 0xF052005829)
      = exec (.cmdRequestCurrentPatch [])
          { State.reset with phase := .busy, req := some (tableRequest 40 0xF052005829) } := rfl

/-! ## One step: the spec's vectors -/

/-- B1 and R98's example. -/
theorem test_b1_request_current_patch :
    answer { op := 0, a := 0x29, b := 0, data := [] } = outResponse [0xF0, 0x52, 0x00, 0x58, 0x29, 0xF7] := by decide
/-- B2. -/
theorem test_b2_parameter_change :
    answer { op := 0, a := 0x31, b := 0, data := [0x01, 0x03, 0x2C, 0x05] }
      = outResponse [0xF0, 0x52, 0x00, 0x58, 0x31, 0x01, 0x03, 0x2C, 0x05, 0xF7] := by decide
/-- B3: the largest legal func and byte. -/
theorem test_b3_largest_legal :
    answer { op := 0, a := 0x7F, b := 0, data := [0x7F] }
      = outResponse [0xF0, 0x52, 0x00, 0x58, 0x7F, 0x7F, 0xF7] := by decide
/-- B7: a payload byte above 0x7F; no partial frame. -/
theorem test_b7_payload_out_of_range :
    answer { op := 0, a := 0x08, b := 0, data := [0x00, 0xF7] } = statusOnly .valueOutOfRange := by decide
/-- B9: capacity before range (R173). -/
theorem test_b9_capacity_before_range :
    execResponse (.buildCommand 0x80 (zeros 9)) (limited 8) = statusOnly .capacityExceeded := by decide
/-- B11: the largest Value14. -/
theorem test_b11_param_change :
    paramChange 2 9 16383 = some (.cmdParameterChange [0x02, 0x09, 0x7F, 0x7F]) := by decide
/-- U2: ignored operands have no effect. -/
theorem test_u2_inquiry :
    answer { op := 1, a := 0xFF, b := 0xFF, data := [1, 2, 3] }
      = outResponse [0xF0, 0x7E, 0x00, 0x06, 0x01, 0xF7] := by decide
/-- U3: the length is still checked. -/
theorem test_u3_inquiry_capacity :
    execResponse (.buildUniversalInquiry 9) (limited 8) = statusOnly .capacityExceeded := by decide
/-- K3: two bytes, no channel fields. -/
theorem test_k3_short :
    answer (received [0x90, 0x40]) = { Response.empty with
      status := some .ok, cls := some .noMatch, out := some [], chanValid := some false } := by decide
/-- K5: bytes after index 2 are ignored. -/
theorem test_k5_channel_message :
    answer (received [0xB3, 0x07, 0x64, 0x00]) = { Response.empty with
      status := some .ok, cls := some .noMatch, out := some [], chanValid := some true, msgType := some 0xB,
      channel := some 3, code := some 0x07, value := some 0x64 } := by decide
/-- K7: the shortest vendor match; the payload range is empty. -/
theorem test_k7_shortest_vendor :
    answer (received [0xF0, 0x52, 0x00, 0x58, 0x08]) = { Response.empty with
      status := some .ok, cls := some .vendor, func := some 0x08, subfuncValid := some false,
      out := some [] } := by decide
/-- K10: the last byte is dropped unchecked. -/
theorem test_k10_unterminated :
    answer (received [0xF0, 0x52, 0x00, 0x58, 0x31, 0x01, 0x03, 0x2C, 0x05]) = { Response.empty with
      status := some .ok, cls := some .vendor, func := some 0x31, subfuncValid := some false,
      out := some [0x01, 0x03, 0x2C] } := by decide
/-- K13: the inquiry itself. -/
theorem test_k13_inquiry :
    answer (received [0xF0, 0x7E, 0x00, 0x06, 0x01, 0xF7]) = { Response.empty with
      status := some .ok, cls := some .universal, func := some 0x06, subfuncValid := some true,
      subfunc := some 0x01, out := some [] } := by decide
/-- K16: a general-information response. -/
theorem test_k16_info_response :
    answer (received infoFrame) = { Response.empty with
      status := some .ok, cls := some .universal, func := some 0x06, subfuncValid := some true,
      subfunc := some 0x02, out := some [0x52, 0x58, 0x00, 0x00, 0x31, 0x2E, 0x32, 0x30] } := by decide
/-- A universal frame of another function code (R73, R111). -/
theorem test_universal_other_func :
    answer (received [0xF0, 0x7E, 0x00, 0x09, 0x03, 0x81, 0x00]) = { Response.empty with
      status := some .ok, cls := some .universal, func := some 0x09, subfuncValid := some true,
      subfunc := some 0x03, out := some [0x81] } := by decide
/-- UN9: mask bits 5, 3 and 1 restore data bytes 1, 3 and 5. -/
theorem test_un9_mask :
    answer { op := 3, a := 0, b := 0, data := [0x2A, 1, 2, 3, 4, 5, 6, 7] }
      = outResponse [0x01, 0x82, 0x03, 0x84, 0x05, 0x86, 0x07] := by decide
/-- UN14: a second, short group. -/
theorem test_un14_second_group :
    answer { op := 3, a := 0, b := 0, data := [0, 1, 2, 3, 4, 5, 6, 7, 0x7F, 0x11] }
      = outResponse [1, 2, 3, 4, 5, 6, 7, 0x91] := by decide
/-- CB5. -/
theorem test_cb5_combine :
    answer combine684 = { Response.empty with status := some .ok, value14 := some 684 } := by decide
/-- CB9: high out of range. -/
theorem test_cb9_combine_out_of_range :
    answer { op := 4, a := 0x00, b := 0x80, data := [] } = statusOnly .valueOutOfRange := by decide
/-- Program 4, step 2: ILLEGAL_OP has priority over CAPACITY_EXCEEDED. -/
theorem test_illegal_op_before_capacity :
    execResponse (decode { op := 7, a := 0, b := 0, data := zeros 131 }) (limited 130) = statusOnly .illegalOp := by
  decide
theorem test_reserved6_illegal :
    answer { op := 6, a := 0, b := 0, data := [] } = statusOnly .illegalOp := by decide

set_option maxRecDepth 4000 in
/-- P4: effect_count 7 with one byte too few. -/
theorem test_p4_one_byte_short :
    execResponse (.parsePatch ((zeros 125).set 109 0x1C)) State.reset = statusOnly .insufficientData := by decide

set_option maxRecDepth 4000 in
/-- P39: slot 6 overlaps the header. -/
theorem test_p39_slot_six :
    let r := execResponse (.parsePatch (((zeros 126).set 108 0x41).set 109 0x1C)) State.reset
    r.effectCount = some 7 ∧ r.currentEffectIndex = some 4 ∧ readValue r (.dspFull 0) = some 1 ∧
    readValue r (.dspFull 1) = some 0 ∧ readValue r (.enabled 6) = some 1 ∧ readValue r (.effectType 6) = some 98 ∧
    readValue r (.dspFull 6) = some 1 := by decide

/-- The buffer of program 3: two slots, the header bytes 82 69 0F, the name "Clean Amp ". -/
def program3 : List Byte :=
  [0xA1, 0x04, 0x00, 0x06, 0x7D, 0xFC, 0xFF, 0x02, 0xB0, 0x2A, 0x01, 0xF0, 0x4F, 0x03, 0x00, 0x00, 0x64, 0x00]
    ++ [0xE0, 0x0F, 0x00, 0x1E, 0, 0, 0, 0, 0, 0, 0, 0, 0, 0, 0, 0, 0xFF, 0x00]
    ++ zeros 72
    ++ [0x82, 0x69, 0x0F, 0x43, 0x6C, 0x65, 0x61, 0x6E, 0x20, 0x41, 0x6D, 0x70, 0x20]

set_option maxRecDepth 4000 in
/-- Program 3, step 4: slot 0. -/
theorem test_program3_slot0 :
    slotOf (execResponse (.parsePatch program3) State.reset) 0 = some
      { enabled := true, effectType := 37, category := 3, param0 := 1000, param1 := 8191, param2 := 5,
        param3 := 171, param4 := 18, param5 := 0, param6 := 255, param7 := 52, param8 := 100,
        dspFull := false } := by decide

set_option maxRecDepth 4000 in
/-- Program 3, step 4: the header fields and the name. -/
theorem test_program3_header :
    let r := execResponse (.parsePatch program3) State.reset
    r.effectCount = some 2 ∧ r.currentEffectIndex = some 2 ∧ r.tempo = some 123 ∧
    r.name = some [0x43, 0x6C, 0x65, 0x61, 0x6E, 0x20, 0x41, 0x6D, 0x70] ∧
    readValue r (.dspFull 1) = some 1 ∧ readValue r (.slotValid 2) = some 0 ∧ readValue r (.enabled 2) = none := by
  decide

set_option maxRecDepth 4000 in
/-- Program 3's packed form, its first two groups and its last (R129). -/
theorem test_program3_packed :
    (packBytes program3).length = 139 ∧
    (packBytes program3).take 16
      = [0x43, 0x21, 0x04, 0x00, 0x06, 0x7D, 0x7C, 0x7F, 0x24, 0x02, 0x30, 0x2A, 0x01, 0x70, 0x4F, 0x03] ∧
    (packBytes program3).drop 136 = [0x00, 0x70, 0x20] := by decide

/-! ## Witnesses: a state and operands that meet the hypotheses of each statement -/

/-- An acknowledged step. -/
def ack : Pins := { Pins.quiet with respReady := true }

/-- A step with reset asserted. -/
def resetPins : Pins := { Pins.quiet with reset := true }

/-- A step in which the host reads one field. -/
def reading (f : RespField) : Pins := { Pins.quiet with reads := [f] }

theorem test_idle_inv (p : Pins) : Inv (idle p) := ⟨trivial, fun _ h => nomatch h⟩
theorem test_busy_inv (r : Request) (p : Pins) : Inv (busy r p) := ⟨rfl, fun _ h => nomatch h⟩
theorem test_done_inv (r : Request) (p : Pins) : Inv (done r p) := ⟨⟨r, rfl, rfl⟩, fun _ h => nomatch h⟩

theorem test_witness_every_step_keeps_invariant :
    (∃ t, Inv (idle { Pins.quiet with request := some combine684 }) ∧
      step (idle { Pins.quiet with request := some combine684 }) = .next t) ∧
    (∃ t, Inv (busy combine684 Pins.quiet) ∧ step (busy combine684 Pins.quiet) = .next t) ∧
    (∃ t, Inv (done combine684 ack) ∧ step (done combine684 ack) = .next t ∧ t.delivered.length = 1) :=
  ⟨⟨_, test_idle_inv _, rfl⟩, ⟨_, test_busy_inv _ _, rfl⟩, ⟨_, test_done_inv _ _, rfl, rfl⟩⟩

theorem test_witness_step_keeps_config_and_history :
    ∃ t, step (done combine684 { reading .value14 with respReady := true }) = .next t ∧
      t.readings = [(.value14, 684)] ∧ t.delivered.length = 1 := ⟨_, rfl, rfl, rfl⟩

theorem test_witness_step_runs_latched :
    let s := busy combine684 Pins.quiet
    s.phase = .busy ∧ s.req = some combine684 ∧ (pins s).reset = false ∧ (pins s).stall = false ∧
      (pins s).reads = [] := by decide

theorem test_witness_accept_request :
    let s := idle { Pins.quiet with request := some combine684 }
    s.phase = .idle ∧ (pins s).reset = false ∧ (pins s).reads = [] ∧ (pins s).request = some combine684 := by decide

theorem test_witness_accept_no_request :
    State.reset.phase = .idle ∧ (pins State.reset).reset = false ∧ (pins State.reset).reads = [] ∧
      (pins State.reset).request = none := by decide

theorem test_witness_deliver_acknowledged :
    let s := done combine684 ack
    s.phase = .done ∧ (pins s).reset = false ∧ (pins s).reads = [] ∧ (pins s).respReady = true := by decide

theorem test_witness_deliver_waits :
    let s := done combine684 Pins.quiet
    s.phase = .done ∧ (pins s).reset = false ∧ (pins s).reads = [] ∧ (pins s).respReady = false := by decide

theorem test_witness_reset_in_every_phase :
    ((pins (idle resetPins)).reset = true ∧ (pins (idle resetPins)).reads = []) ∧
    ((pins (busy combine684 resetPins)).reset = true ∧ (pins (busy combine684 resetPins)).reads = []) ∧
    ((pins (done combine684 resetPins)).reset = true ∧ (pins (done combine684 resetPins)).reads = []) := by decide

theorem test_witness_presented_request_ignored :
    (busy combine684 Pins.quiet).phase ≠ .idle ∧ (done combine684 Pins.quiet).phase ≠ .idle := by decide

theorem test_witness_host_read_outside_window :
    (reading .status).reset = false ∧ (reading .status).reads = .status :: [] ∧ State.reset.phase ≠ .done := by decide

/-- A read in a step with reset, in DONE (log 7). -/
theorem test_witness_host_read_in_reset :
    let p := { reading .status with reset := true }
    p.reset = true ∧ p.reads = .status :: [] ∧ (done combine684 p).phase = .done := by decide

/-- Two reads in one step: the first has a value, the second has none. -/
theorem test_witness_host_reads_two :
    let p := { Pins.quiet with reads := [.value14, .cls] }
    p.reads = .value14 :: [.cls] ∧ p.reset = false ∧ readValue (done combine684 p).resp .value14 = some 684 ∧
      readValue (done combine684 p).resp .cls = none := by decide

theorem test_witness_host_read_no_value :
    let s := done combine684 Pins.quiet
    s.phase = .done ∧ readValue s.resp .outLen = none ∧
      readValue (done (received []) Pins.quiet).resp .outLen = none := by decide

theorem test_witness_host_read_value :
    let s := done combine684 Pins.quiet
    s.phase = .done ∧ readValue s.resp .value14 = some 684 := by decide

theorem test_witness_reads_have_no_side_effects :
    ∃ t, step { done combine684 Pins.quiet with script := reading .value14 :: [] } = .next t ∧
      t.readings = [(.value14, 684)] := ⟨_, rfl, rfl⟩

theorem test_witness_only_host_reads_stop :
    Inv (busy combine684 Pins.quiet) ∧ (pins (busy combine684 Pins.quiet)).reads = [] := ⟨test_busy_inv _ _, rfl⟩

theorem test_witness_transaction_completes :
    (∃ s : State, s.phase = .idle ∧
      s.script = { Pins.quiet with request := some combine684 }
        :: (List.replicate 0 { Pins.quiet with stall := true } ++ Pins.quiet :: ack :: [])) ∧
    (∃ s : State, s.phase = .idle ∧
      s.script = { Pins.quiet with request := some combine684 }
        :: (List.replicate 2 { Pins.quiet with stall := true } ++ Pins.quiet :: ack :: [])) :=
  ⟨⟨{ State.reset with script := _ }, rfl, rfl⟩, ⟨{ State.reset with script := _ }, rfl, rfl⟩⟩

theorem test_witness_responses_in_order :
    ∃ s : State, s.phase = .idle ∧
      s.script = [combine684, received infoFrame].flatMap transactionPins ++ [resetPins] :=
  ⟨{ State.reset with script := _ }, rfl, rfl⟩

theorem test_witness_reissue_after_reset :
    (∃ s : State, s.phase ≠ .idle ∧ s.req = some combine684 ∧
      s.script = { Pins.quiet with reset := true } :: (transactionPins combine684 ++ [])) ∧
    (∃ s : State, s.phase = .done ∧ s.req = some combine684 ∧
      s.script = { Pins.quiet with reset := true } :: (transactionPins combine684 ++ [])) :=
  ⟨⟨{ busy combine684 Pins.quiet with script := _ }, by decide, rfl, rfl⟩,
    ⟨{ done combine684 Pins.quiet with script := _ }, rfl, rfl, rfl⟩⟩

theorem test_witness_well_formed :
    wellFormed (.buildCommand 0x00 []) = true ∧ wellFormed (.classify [0x90, 0x40]) = true ∧
    wellFormed (.universalFrame 0x05 0x01 []) = true ∧ wellFormed (.generalInfo 0x01 []) = true ∧
    wellFormed (.channelMessage 0xF0 0x52 0x00 [0x58]) = true ∧
    wellFormed (.channelMessage 0xF0 0x7E 0x00 [0x06]) = true := by decide

theorem test_witness_op_values :
    ∀ op : BitVec 3, op = 0 ∨ op = 1 ∨ op = 2 ∨ op = 3 ∨ op = 4 ∨ op = 5 ∨ op = 6 ∨ op = 7 := by decide

/-- Two requests that differ in every ignored field, for each operation. -/
theorem test_witness_ignored_fields :
    (∀ op ∈ ([0, 1, 2, 3, 4, 5, 6, 7] : List (BitVec 3)),
      let r : Request :=
        { op := op, a := 1, b := 2, data := if op = 1 ∨ op = 4 ∨ op = 6 ∨ op = 7 then [3] else [5] }
      let q : Request :=
        { op := op
          a := if op = 0 ∨ op = 4 then 1 else 9
          b := if op = 4 then 2 else 8
          data := if op = 1 ∨ op = 4 ∨ op = 6 ∨ op = 7 then [4] else [5] }
      r ≠ q ∧ r.op = q.op ∧ (r.op = 0 → r.a = q.a ∧ sameBuffer (limited 1).config r q) ∧
      (r.op = 1 → r.len = q.len) ∧ (r.op = 2 ∨ r.op = 3 ∨ r.op = 5 → sameBuffer (limited 1).config r q) ∧
      (r.op = 4 → r.a = q.a ∧ r.b = q.b ∧ r.len = q.len)) := by decide

/-- Two over-long requests that differ past the bytes the buffer holds (log 18). -/
theorem test_witness_ignored_bytes_past_buffer :
    let r := received [0x90, 0x40]
    let q := received [0x90, 0x41]
    r ≠ q ∧ r.op = q.op ∧ r.op = 2 ∧ sameBuffer (limited 1).config r q := by decide

theorem test_witness_status_and_cls_codes :
    readValue (raise .ok) .status = some 0 ∧ readValue (raise .insufficientData) .status = some 1 ∧
    readValue (raise .valueOutOfRange) .status = some 2 ∧ readValue (raise .illegalOp) .status = some 3 ∧
    readValue (raise .capacityExceeded) .status = some 4 ∧ readValue shortResult .cls = some 0 ∧
    readValue (vendorResult 8 []) .cls = some 1 ∧ readValue (universalResult 6 1 []) .cls = some 2 := by decide

theorem test_witness_exec_changes_only :
    ∃ t, exec .reserved6 (busy combine684 ack) = .next t ∧ t.req = some combine684 ∧ t.script = [ack] :=
  ⟨_, rfl, rfl, rfl⟩

theorem test_witness_response_depends_on_request_alone :
    State.reset.config = (done combine684 ack).config ∧ State.reset ≠ done combine684 ack := by decide

theorem test_witness_failures_are_precise :
    (∃ t, exec (.combine 0x80 0 0) State.reset = .next t ∧ t.resp.status = some .valueOutOfRange) ∧
    (∃ t, exec (.combine 0x7F 0 0) State.reset = .next t ∧ t.resp.status = some .ok) :=
  ⟨⟨_, rfl, rfl⟩, ⟨_, rfl, rfl⟩⟩

theorem test_witness_readable_fields :
    ∃ t, exec (decode (received [0x90])) State.reset = .next t ∧ readValue t.resp .chanValid = some 0 ∧
      readValue t.resp .outLen = none ∧ listed .classify t.resp .outLen = false := ⟨_, rfl, rfl, rfl, rfl⟩

/-- The bound `len + 6` is reached by BUILD_COMMAND. -/
theorem test_witness_out_length :
    (∃ t bytes, exec (decode { op := 0, a := 0, b := 0, data := [1, 2] }) State.reset = .next t ∧
      t.resp.out = some bytes ∧ bytes.length = 8) ∧
    (∃ t bytes, exec (decode { op := 3, a := 0, b := 0, data := [1, 2] }) State.reset = .next t ∧
      t.resp.out = some bytes) ∧
    (∃ t bytes, exec (decode (received infoFrame)) State.reset = .next t ∧ t.resp.out = some bytes ∧
      bytes.length = infoFrame.length - 6) :=
  ⟨⟨_, _, rfl, rfl, rfl⟩, ⟨_, _, rfl, rfl⟩, ⟨_, _, rfl, rfl, rfl⟩⟩

/-- R49's widths where MAX_LEN is 2: indexes up to 2 in two bits, up to 8 in four. -/
theorem test_witness_index_widths :
    (∃ t bytes, exec (decode { op := 0, a := 0, b := 0, data := [1, 2] }) (limited 2) = .next t ∧
      t.resp.out = some bytes ∧ bytes.length = 8) ∧
    (limited 2).config.maxLen = some 2 ∧ lenW (limited 2).config = some 2 ∧ outLenW (limited 2).config = some 4 :=
  ⟨⟨_, _, rfl, rfl, rfl⟩, rfl, by decide, by decide⟩

theorem test_witness_capacity_exceeded :
    (5 : BitVec 3).toNat < 6 ∧ (limited 8).config.maxLen = some 8 ∧ 8 < (zeros 9).length := by decide

/-- `len = MAX_LEN` is within. -/
theorem test_witness_capacity_boundary :
    (2 : BitVec 3).toNat < 6 ∧ withinMax (limited 2) (received [0xF0, 0x52]).len ∧
      ∃ t, exec (decode (received [0xF0, 0x52])) (limited 2) = .next t := ⟨by decide, test_withinMax_limit 2, _, rfl⟩

theorem test_witness_capacity_unbounded :
    State.reset.config.maxLen = none ∧ ∃ t, exec (decode (received infoFrame)) State.reset = .next t :=
  ⟨rfl, _, rfl⟩

/-- Legal up to 0x7F, and `len = MAX_LEN`. -/
theorem test_witness_build_command_legal :
    withinMax (limited 1) [(0x7F : Byte)].length ∧ (0x7F : Byte).toNat ≤ 0x7F ∧
      ∀ x ∈ [(0x7F : Byte)], x.toNat ≤ 0x7F := ⟨test_withinMax_limit 1, by decide⟩

theorem test_witness_build_command_illegal :
    withinMax (limited 1) [(0x80 : Byte)].length ∧ 0x7F < (0x80 : Byte).toNat ∧
      ∃ x ∈ [(0x80 : Byte)], 0x7F < x.toNat := ⟨test_withinMax_limit 1, by decide⟩

theorem test_witness_catalog_frames :
    withinMax (limited 2) [(0x00 : Byte), 0x7F].length ∧ ∀ x ∈ [(0x00 : Byte), 0x7F], x.toNat ≤ 0x7F :=
  ⟨test_withinMax_limit 2, by decide⟩

theorem test_witness_param_change :
    withinMax (limited 4) 4 ∧ (127 ≤ 127 ∧ 16383 ≤ 16383) ∧ (128 ≤ 255 ∧ 127 < 128) ∧ 16383 < 16384 :=
  ⟨test_withinMax_limit 4, by decide⟩

theorem test_witness_inquiry : withinMax (limited 0) 0 ∧ (limited 0).config.maxLen = some 0 ∧ 0 < 1 :=
  ⟨test_withinMax_limit 0, rfl, by decide⟩

/-- The payload range is empty for a `rest` of no byte and of one. -/
theorem test_witness_classify_recognised :
    withinMax (limited 5) (5 + ([] : List Byte).length) ∧ withinMax (limited 6) (5 + [(0xF7 : Byte)].length) ∧
      withinMax (limited 6) 6 := ⟨test_withinMax_limit 5, test_withinMax_limit 6, test_withinMax_limit 6⟩

theorem test_witness_classify_no_match_channel :
    withinMax (limited 4) (3 + [(0x58 : Byte)].length) ∧
    ¬ ((0xF0 : Byte) = 0xF0 ∧ (0x52 : Byte) = 0x52 ∧ (0 : Byte) = 0 ∧ [(0x58 : Byte)].head? = some 0x58 ∧
      2 ≤ [(0x58 : Byte)].length) ∧
    ¬ ((0xF0 : Byte) = 0xF0 ∧ (0x52 : Byte) = 0x7E ∧ (0 : Byte) = 0 ∧ 2 ≤ [(0x58 : Byte)].length) :=
  ⟨test_withinMax_limit 4, by decide⟩

theorem test_witness_classify_no_match_short :
    withinMax (limited 2) [(0xF0 : Byte), 0x7E].length ∧ [(0xF0 : Byte), 0x7E].length < 3 :=
  ⟨test_withinMax_limit 2, by decide⟩

theorem test_witness_classify_tests_exact :
    (∃ t, withinMax State.reset 5 ∧ exec (.classify [0xF0, 0x52, 0x00, 0x58, 0x08]) State.reset = .next t ∧
      t.resp.cls = some .vendor) ∧
    (∃ t, withinMax State.reset 5 ∧ exec (.classify [0xF0, 0x7E, 0x00, 0x06, 0x01]) State.reset = .next t ∧
      t.resp.cls = some .universal) ∧
    (∃ t, withinMax State.reset 4 ∧ exec (.classify [0xF0, 0x52, 0x00, 0x58]) State.reset = .next t ∧
      t.resp.cls = some .noMatch) :=
  ⟨⟨_, test_withinMax_reset _, rfl, rfl⟩, ⟨_, test_withinMax_reset _, rfl, rfl⟩,
    ⟨_, test_withinMax_reset _, rfl, rfl⟩⟩

theorem test_witness_classify_ignores_last_byte : 5 ≤ [(0xF0 : Byte), 0x52, 0x00, 0x58, 0x08].length := by decide

theorem test_witness_classify_inverts_build :
    (0x7F : Byte).toNat ≤ 0x7F ∧ (∀ x ∈ [(0x7F : Byte)], x.toNat ≤ 0x7F) ∧
    withinMax (limited 7) ([(0x7F : Byte)].length + 6) ∧ withinMax State.reset 0 ∧ withinMax (limited 6) 6 :=
  ⟨by decide, by decide, test_withinMax_limit 7, test_withinMax_reset 0, test_withinMax_limit 6⟩

/-- The last data byte of a full group, and the one data byte of a short group. -/
theorem test_witness_unpack_result :
    let D : List Byte := [1, 0, 0, 0, 0, 0, 0, 0x7F, 0x40, 0x05]
    withinMax (limited 10) D.length ∧ (6 < 7 ∧ D[8 * 0]? = some 1 ∧ D[8 * 0 + 1 + 6]? = some 0x7F) ∧
      (0 < 7 ∧ D[8 * 1]? = some 0x40 ∧ D[8 * 1 + 1 + 0]? = some 0x05) :=
  ⟨test_withinMax_limit 10, by decide⟩

theorem test_witness_streaming : withinMax (limited 9) (zeros 9).length := test_withinMax_limit 9

theorem test_witness_pack : withinMax (limited 2) (packBytes [0xFF]).length ∧ packBytes [0xFF] = [0x40, 0x7F] :=
  ⟨test_withinMax_limit 2, by decide⟩

set_option maxRecDepth 4000 in
theorem test_witness_packed_lengths :
    (∃ t out, exec (.unpack (zeros 139)) State.reset = .next t ∧ t.resp.out = some out ∧ (zeros 139).length = 139) ∧
    (∃ t out, exec (.unpack (zeros 138)) State.reset = .next t ∧ t.resp.out = some out ∧ (zeros 138).length = 138) ∧
    (∃ t out, exec (.unpack (zeros 144)) State.reset = .next t ∧ t.resp.out = some out ∧ (zeros 144).length = 144) :=
  ⟨⟨_, _, rfl, rfl, by simp [zeros]⟩, ⟨_, _, rfl, rfl, by simp [zeros]⟩, ⟨_, _, rfl, rfl, by simp [zeros]⟩⟩

theorem test_witness_combine :
    withinMax (limited 0) 0 ∧ ((0x7F : Byte).toNat ≤ 0x7F ∧ (0x00 : Byte).toNat ≤ 0x7F) ∧
      0x7F < (0x80 : Byte).toNat := ⟨test_withinMax_limit 0, by decide⟩

theorem test_witness_combine_split : 16383 ≤ 16383 ∧ withinMax (limited 0) 0 := ⟨by decide, test_withinMax_limit 0⟩

set_option maxRecDepth 4000 in
/-- 120 bytes; 125 bytes with count 7; 126 bytes with count 7; 121 bytes with count 0. -/
theorem test_witness_patch_length_checks :
    withinMax State.reset 126 ∧ (zeros 120).length < 121 ∧
    (((zeros 125).set 109 0x1C)[109]? = some 0x1C ∧
      ((zeros 125).set 109 0x1C).length < 18 * (((0x1C : Byte).toNat >>> 2) &&& 7)) ∧
    (((zeros 126).set 109 0x1C)[109]? = some 0x1C ∧ 121 ≤ ((zeros 126).set 109 0x1C).length ∧
      18 * (((0x1C : Byte).toNat >>> 2) &&& 7) ≤ ((zeros 126).set 109 0x1C).length) ∧
    ((zeros 121)[109]? = some 0 ∧ 121 ≤ (zeros 121).length ∧
      18 * (((0 : Byte).toNat >>> 2) &&& 7) ≤ (zeros 121).length) := ⟨test_withinMax_reset _, by decide⟩

set_option maxRecDepth 4000 in
theorem test_witness_patch_header_fields :
    let D := ((zeros 126).set 108 0xC0).set 109 0x1C
    withinMax (limited 126) D.length ∧ D[108]? = some 0xC0 ∧ D[109]? = some 0x1C ∧ D[110]? = some 0 ∧
      121 ≤ D.length ∧ 18 * (((0x1C : Byte).toNat >>> 2) &&& 7) ≤ D.length :=
  ⟨test_withinMax_limit 126, by decide⟩

set_option maxRecDepth 4000 in
/-- With effect_count 2, slot 1 is valid and slot 2 is not. -/
theorem test_witness_patch_slots :
    ∃ t, exec (.parsePatch program3) State.reset = .next t ∧ t.resp.effectCount = some 2 ∧
      (slotOf t.resp 1).isSome = true ∧ slotOf t.resp 2 = none :=
  ⟨_, rfl, by decide, by decide, by decide⟩

set_option maxRecDepth 4000 in
theorem test_witness_patch_ok :
    ∃ t, exec (.parsePatch program3) State.reset = .next t ∧ t.resp.status = some .ok ∧
      t.resp.name.map List.length = some 9 ∧ (slotOf t.resp 1).isSome = true :=
  ⟨_, rfl, by decide, by decide, by decide⟩

set_option maxRecDepth 4000 in
/-- P19's and P23's unused bits, in two buffers that are not equal. -/
theorem test_witness_unused_bits :
    let D := (zeros 121).set 109 0x04
    let E := (D.set 2 0xFF).set 0 0x1E
    D ≠ E ∧ D.length = E.length ∧ D[109]? = some 0x04 ∧
      ∀ i, (D.getD i 0) &&& usedMask (((0x04 : Byte).toNat >>> 2) &&& 7) i
        = (E.getD i 0) &&& usedMask (((0x04 : Byte).toNat >>> 2) &&& 7) i := by
  refine ⟨by decide, by decide, by decide, fun i => ?_⟩
  by_cases h : i < 121
  · exact (by decide : ∀ i < 121,
      (((zeros 121).set 109 0x04).getD i 0) &&& usedMask (((0x04 : Byte).toNat >>> 2) &&& 7) i
        = (((((zeros 121).set 109 0x04).set 2 0xFF).set 0 0x1E).getD i 0)
          &&& usedMask (((0x04 : Byte).toNat >>> 2) &&& 7) i) i h
  · simp [zeros, List.getD, h]

set_option maxRecDepth 4000 in
/-- P40's extra bytes, at `len = MAX_LEN`. -/
theorem test_witness_past_required_length :
    let D := (zeros 121).set 109 0x04
    D[109]? = some 0x04 ∧ 121 ≤ D.length ∧ 18 * (((0x04 : Byte).toNat >>> 2) &&& 7) ≤ D.length ∧
      withinMax (limited 130) (D.length + (List.replicate 9 (0xFF : Byte)).length) :=
  ⟨by decide, by decide, by decide, test_withinMax_limit 130⟩

set_option maxRecDepth 4000 in
theorem test_witness_slot_six :
    ∃ t, exec (.parsePatch ((zeros 126).set 109 0x1C)) State.reset = .next t ∧ t.resp.effectCount = some 7 :=
  ⟨_, rfl, by decide⟩

theorem test_witness_wire : withinMax (limited 8) ((packBytes [0x81]).length + 6) := test_withinMax_limit 8

theorem test_witness_send_patch : 10 ≤ (zeros 10).length ∧ withinMax (limited 16) (6 + (zeros 10).length) :=
  ⟨by decide, test_withinMax_limit 16⟩

end Sys2Proof.Tests
end

section
/-! PROOFS. The host's reads within a step (R191): what a step is with and without reset, and what the first read of
one comes to. -/

namespace Sys2Proof.Machine

/-- Reset dominates whatever else the pins of its step hold (R185). -/
theorem step_script_cons_of_reset (s : State) {p : Pins} (rest : List Pins) (h : p.reset = true) :
    step { s with script := p :: rest } = resetStep p { s with script := rest } :=
  if_pos h

theorem step_script_cons_of_not_reset (s : State) {p : Pins} (rest : List Pins) (h : p.reset = false) :
    step { s with script := p :: rest } = runStep p { s with script := rest } :=
  if_neg (by simp [h])

/-- In a reset step every read is outside the read window (R191; log 7). -/
theorem resetStep_of_reads {p : Pins} {f : RespField} {fs : List RespField} (h : p.reads = f :: fs) (t : State) :
    resetStep p t = .fault .responseNotValid := by
  simp [resetStep, h]

/-- The step a phase enables does not look at the reads (R60). -/
theorem phaseStep_with_reads (p : Pins) (fs : List RespField) (t : State) :
    phaseStep { p with reads := fs } t = phaseStep p t := rfl

theorem readField_of_value {s : State} {f : RespField} {v : Nat} (hp : s.phase = .done)
    (hv : readValue s.resp f = some v) : readField s f = .ok v := by
  simp [readField, hp, hv]

theorem readField_of_no_value {s : State} {f : RespField} (hp : s.phase = .done)
    (hv : readValue s.resp f = none) : readField s f = .error (.fieldHoldsNoValue f) := by
  simp [readField, hp, hv]

theorem readField_outside {s : State} (hp : s.phase ≠ .done) (f : RespField) :
    readField s f = .error .responseNotValid :=
  if_neg hp

/-- A step without reset stops with the fault of its first read. -/
theorem runStep_of_read_error {p : Pins} {t : State} {f : RespField} {fs : List RespField} {e : Fault}
    (h : p.reads = f :: fs) (he : readField t f = .error e) : runStep p t = .fault e := by
  simp [runStep, h, hostReads, he]

/-- A first read that answers goes into the readings, and the step goes on as the step of the remaining reads. -/
theorem runStep_of_read_ok {p : Pins} {t : State} {f : RespField} {fs : List RespField} {v : Nat}
    (h : p.reads = f :: fs) (hv : readField t f = .ok v) :
    runStep p t = runStep { p with reads := fs } { t with readings := t.readings ++ [(f, v)] } := by
  simp [runStep, h, hostReads, hv, phaseStep_with_reads]

/-- Settles O10, by the first read of the step: the reset step refuses it, and without reset the phase and the field's
value decide what it answers. -/
theorem hostReadsOnlyInWindow : Obligations.HostReadsOnlyInWindow := by
  intro s p rest f fs hreads
  refine ⟨fun hr => ?reset, fun hr hp => ?outside, fun hr hp hv => ?noValue, fun v hr hp hv => ?value⟩
  case reset =>
    rw [step_script_cons_of_reset s rest hr]
    exact resetStep_of_reads hreads _
  case outside =>
    rw [step_script_cons_of_not_reset s rest hr]
    exact runStep_of_read_error hreads (readField_outside hp f)
  case noValue =>
    rw [step_script_cons_of_not_reset s rest hr]
    exact runStep_of_read_error hreads (readField_of_no_value hp hv)
  case value =>
    calc step { s with script := p :: rest }
        = runStep p { s with script := rest } := step_script_cons_of_not_reset s rest hr
      _ = runStep { p with reads := fs } { s with script := rest, readings := s.readings ++ [(f, v)] } :=
          runStep_of_read_ok hreads (readField_of_value hp hv)
      _ = step { s with script := { p with reads := fs } :: rest, readings := s.readings ++ [(f, v)] } :=
          (step_script_cons_of_not_reset (p := { p with reads := fs })
            { s with readings := s.readings ++ [(f, v)] } rest hr).symm

end Sys2Proof.Machine
end

section
/-! PROOFS. What Compute writes. Every instruction completes, with a response that is a function of MAX_LEN; the
response of a decoded request is the one R69 gives it, and reads only the operands its operation takes. -/

namespace Sys2Proof.Machine

/-! ## Every instruction completes -/

/-- What the common check of R69 makes of an operation's own response to `len` data bytes. -/
def capped (c : Config) (len : Nat) (x : Response) : Response :=
  if exceedsMax c len then raise .capacityExceeded else x

theorem compute_eq_capped (s : State) (len : Nat) (x : Response) :
    compute s len x = .next (finished s (capped s.config len x)) :=
  compute_eq s len x

/-- A meaning that always completes, with a response that depends on the configuration alone. -/
def CompletesByConfig (f : State → Host.Outcome State Fault Refusal) : Prop :=
  ∃ g : Config → Response, ∀ s, f s = .next (finished s (g s.config))

theorem compute_completesByConfig (len : Nat) (x : Response) : CompletesByConfig fun s => compute s len x :=
  ⟨fun c => capped c len x, fun s => compute_eq_capped s len x⟩

theorem complete_completesByConfig (x : Response) : CompletesByConfig fun s => complete s x :=
  ⟨fun _ => x, fun s => complete_eq s x⟩

/-- Every meaning is the common check around one response, or, for the reserved selects, a plain completion. -/
theorem exec_completesByConfig (i : Instr) : CompletesByConfig (exec i) := by
  cases i with
  | reserved6 => exact complete_completesByConfig _
  | reserved7 => exact complete_completesByConfig _
  | _ => exact compute_completesByConfig _ _

/-- Settles O24: an instruction's next state is `finished`, whose other fields are those of the state before. -/
theorem execChangesOnlyResponseAndPhase : Obligations.ExecChangesOnlyResponseAndPhase := by
  intro i s t h
  obtain ⟨g, hg⟩ := exec_completesByConfig i
  rw [hg s] at h
  cases h
  simp

/-- Settles O25: the response is that of the configuration, which the two states share. -/
theorem responseDependsOnRequestAlone : Obligations.ResponseDependsOnRequestAlone := by
  intro i s u hc
  obtain ⟨g, hg⟩ := exec_completesByConfig i
  exact ⟨g s.config, hg s, hc ▸ hg u⟩

/-! ## The response of a request, operation by operation -/

/-- A select is an operation's exactly when it has the operation's bits (R67). -/
theorem opOf_eq_iff {b : BitVec 3} {o : Op} : opOf b = o ↔ b = opBits o :=
  ⟨fun h => by simp [← h], fun h => by simp [h]⟩

theorem capped_within {c : Config} {len : Nat} (h : exceedsMax c len = false) (x : Response) :
    capped c len x = x := by
  simp [capped, h]

theorem capped_exceeds {c : Config} {len : Nat} (h : exceedsMax c len = true) (x : Response) :
    capped c len x = raise .capacityExceeded := by
  simp [capped, h]

section
variable {r : Request} (c : Config)

theorem responseOf_buildCommand (ho : opOf r.op = .buildCommand) :
    responseOf c r = capped c r.len (commandResponse r.a r.data) := by
  simp [responseOf, ← opOf_reserved_iff, ho, capped]

theorem responseOf_buildUniversalInquiry (ho : opOf r.op = .buildUniversalInquiry) :
    responseOf c r = capped c r.len (outResponse inquiryBytes) := by
  simp [responseOf, ← opOf_reserved_iff, ho, capped]

theorem responseOf_classify (ho : opOf r.op = .classify) :
    responseOf c r = capped c r.len (classifyResponse r.data) := by
  simp [responseOf, ← opOf_reserved_iff, ho, capped]

theorem responseOf_unpack (ho : opOf r.op = .unpack) :
    responseOf c r = capped c r.len (outResponse (unpackBytes r.data)) := by
  simp [responseOf, ← opOf_reserved_iff, ho, capped]

theorem responseOf_combine (ho : opOf r.op = .combine) :
    responseOf c r = capped c r.len (combineResponse r.a r.b) := by
  simp [responseOf, ← opOf_reserved_iff, ho, capped]

theorem responseOf_parsePatch (ho : opOf r.op = .parsePatch) :
    responseOf c r = capped c r.len (patchResponse r.data) := by
  simp [responseOf, ← opOf_reserved_iff, ho, capped]

theorem responseOf_reserved (ho : opOf r.op = .reserved6 ∨ opOf r.op = .reserved7) :
    responseOf c r = raise .illegalOp :=
  if_pos ((opOf_reserved_iff r.op).1 ho)

end

/-! ## Compute runs R69's decode steps -/

/-- A catalog command has BUILD_COMMAND's effect (R98). -/
theorem exec_decodeBuild (func : Byte) (payload : List Byte) (s : State) :
    exec (decodeBuild func payload) s = exec (.buildCommand func payload) s := by
  unfold decodeBuild
  split
  · next n hn =>
    obtain rfl := commandCode_of_commandOf hn
    cases n <;> rfl
  · rfl

/-- A frame row has CLASSIFY's effect on the frame's bytes (R106). -/
theorem exec_decodeFrame (bytes : List Byte) (s : State) :
    exec (decodeFrame bytes) s = exec (.classify bytes) s := by
  unfold decodeFrame
  split
  · split
    · next h => obtain ⟨rfl, rfl, rfl, rfl⟩ := h; rfl
    · split
      · next h =>
        obtain ⟨rfl, rfl, rfl⟩ := h
        split
        · next h3 =>
          subst h3
          split
          · next h4 => obtain ⟨rfl, rfl⟩ := h4; rfl
          · rfl
        · rfl
      · rfl
  · rfl
  · rfl

/-- Naming a request by its most specific row changes no effect (log 5). -/
theorem exec_decode_eq_exec_decodeOp (r : Request) (s : State) : exec (decode r) s = exec (decodeOp r) s := by
  unfold decode decodeOp
  cases opOf r.op with
  | buildCommand => exact exec_decodeBuild r.a r.data s
  | classify => exact exec_decodeFrame r.data s
  | _ => rfl

theorem exec_decodeOp (r : Request) (s : State) :
    exec (decodeOp r) s = .next (finished s (responseOf s.config r)) := by
  unfold decodeOp
  cases ho : opOf r.op with
  | buildCommand => rw [responseOf_buildCommand _ ho]; exact compute_eq_capped s _ _
  | buildUniversalInquiry => rw [responseOf_buildUniversalInquiry _ ho]; exact compute_eq_capped s _ _
  | classify => rw [responseOf_classify _ ho]; exact compute_eq_capped s _ _
  | unpack => rw [responseOf_unpack _ ho]; exact compute_eq_capped s _ _
  | combine => rw [responseOf_combine _ ho]; exact compute_eq_capped s _ _
  | parsePatch => rw [responseOf_parsePatch _ ho]; exact compute_eq_capped s _ _
  | reserved6 => rw [responseOf_reserved _ (.inl ho)]; exact complete_eq s _
  | reserved7 => rw [responseOf_reserved _ (.inr ho)]; exact complete_eq s _

/-- Compute of a decoded request completes with the response of R69's three steps. -/
theorem exec_decode (r : Request) (s : State) :
    exec (decode r) s = .next (finished s (responseOf s.config r)) :=
  (exec_decode_eq_exec_decodeOp r s).trans (exec_decodeOp r s)

theorem eq_finished_of_exec_decode {r : Request} {s t : State} (h : exec (decode r) s = .next t) :
    t = finished s (responseOf s.config r) := by
  rw [exec_decode] at h
  cases h
  rfl

/-! ## Operands an operation ignores -/

theorem capped_congr {c : Config} {m n : Nat} {x y : Response} (hl : m = n)
    (hxy : exceedsMax c m = false → x = y) : capped c m x = capped c n y := by
  subst hl
  cases he : exceedsMax c m with
  | false => rw [hxy he]
  | true => rw [capped_exceeds he, capped_exceeds he]

/-- Within MAX_LEN, R49's buffer holds the whole data. -/
theorem data_eq_of_sameBuffer {s : State} {r q : Request} (h : sameBuffer s.config r q)
    (hle : exceedsMax s.config r.len = false) : r.data = q.data := by
  obtain ⟨hlen, hbuf⟩ := h
  have hr : withinMax s r.data.length := (exceedsMax_eq_false_iff s r.len).1 hle
  have hq : withinMax s q.data.length := fun m hm => hlen.symm.trans_le (hr m hm)
  rwa [buffered_eq_self hr, buffered_eq_self hq] at hbuf

/-- An operation that reads of a request only its data answers two requests with the same buffer alike. -/
theorem capped_congr_of_sameBuffer {s : State} {r q : Request} (h : sameBuffer s.config r q)
    (f : List Byte → Response) : capped s.config r.len (f r.data) = capped s.config q.len (f q.data) :=
  capped_congr h.1 fun hle => congrArg f (data_eq_of_sameBuffer h hle)

/-- Settles O22, operation by operation: the response reads only the operands the hypothesis of its op equates. -/
theorem ignoredFieldsHaveNoEffect : Obligations.IgnoredFieldsHaveNoEffect := by
  intro r q s hop hbuild hinquiry hdata hcombine
  have key : responseOf s.config r = responseOf s.config q := by
    cases ho : opOf r.op with
    | buildCommand =>
      obtain ⟨ha, hb⟩ := hbuild (opOf_eq_iff.1 ho)
      rw [responseOf_buildCommand _ ho, responseOf_buildCommand _ (hop ▸ ho), ha]
      exact capped_congr_of_sameBuffer hb (commandResponse q.a)
    | buildUniversalInquiry =>
      rw [responseOf_buildUniversalInquiry _ ho, responseOf_buildUniversalInquiry _ (hop ▸ ho),
        hinquiry (opOf_eq_iff.1 ho)]
    | classify =>
      rw [responseOf_classify _ ho, responseOf_classify _ (hop ▸ ho)]
      exact capped_congr_of_sameBuffer (hdata (.inl (opOf_eq_iff.1 ho))) _
    | unpack =>
      rw [responseOf_unpack _ ho, responseOf_unpack _ (hop ▸ ho)]
      exact capped_congr_of_sameBuffer (hdata (.inr (.inl (opOf_eq_iff.1 ho)))) fun D => outResponse (unpackBytes D)
    | combine =>
      obtain ⟨ha, hb, hl⟩ := hcombine (opOf_eq_iff.1 ho)
      rw [responseOf_combine _ ho, responseOf_combine _ (hop ▸ ho), ha, hb, hl]
    | parsePatch =>
      rw [responseOf_parsePatch _ ho, responseOf_parsePatch _ (hop ▸ ho)]
      exact capped_congr_of_sameBuffer (hdata (.inr (.inr (opOf_eq_iff.1 ho)))) _
    | reserved6 => rw [responseOf_reserved _ (.inl ho), responseOf_reserved _ (.inl (hop ▸ ho))]
    | reserved7 => rw [responseOf_reserved _ (.inr ho), responseOf_reserved _ (.inr (hop ▸ ho))]
  rw [exec_decode, exec_decode, key]

end Sys2Proof.Machine
end

section
/-! PROOFS. The handshake: reset, what a step without reset and reads does in each phase, a whole transaction, and the
invariant of a run. -/

namespace Sys2Proof.Machine

/-! ## Reset -/

@[simp] theorem fieldValue_empty (f : RespField) : fieldValue Response.empty f = none := by
  cases f <;> rfl

@[simp] theorem readValue_empty (f : RespField) : readValue Response.empty f = none :=
  fieldValue_empty f

/-- Settles O1: `State.reset` is written out so, and a response with no value has no readable field. -/
theorem resetIsIdleAndHoldsNoValue : Obligations.ResetIsIdleAndHoldsNoValue :=
  ⟨rfl, rfl, rfl, rfl, fun f => ⟨fieldValue_empty f, readValue_empty f⟩⟩

/-- Settles O2: phase IDLE asks nothing of the latches, and nothing is delivered yet. -/
theorem resetSatisfiesInvariant : Obligations.ResetSatisfiesInvariant :=
  ⟨trivial, fun _ hd => absurd hd List.not_mem_nil⟩

/-! ## The step of each phase -/

/-- Without reset and reads, a step is the step its phase enables (R26). -/
theorem step_of_no_reads {s : State} (hreset : (pins s).reset = false) (hreads : (pins s).reads = []) :
    step s = phaseStep (pins s) (advance s) := by
  simp [step, runStep, hreset, hreads]

theorem phaseStep_idle {t : State} (hp : t.phase = .idle) (p : Pins) : phaseStep p t = idleStep p t := by
  simp [phaseStep, hp]

theorem phaseStep_busy {t : State} (hp : t.phase = .busy) (p : Pins) : phaseStep p t = busyStep p t := by
  simp [phaseStep, hp]

theorem phaseStep_done {t : State} (hp : t.phase = .done) (p : Pins) : phaseStep p t = doneStep p t := by
  simp [phaseStep, hp]

theorem step_busy_stalled {s : State} (hp : s.phase = .busy) (hreset : (pins s).reset = false)
    (hreads : (pins s).reads = []) (hstall : (pins s).stall = true) : step s = .next (advance s) := by
  rw [step_of_no_reads hreset hreads, phaseStep_busy (t := advance s) hp]
  simp [busyStep, hstall]

/-- Settles O5: BUSY enables Compute, which runs what the latch decodes to. -/
theorem stepRunsLatchedInstruction : Obligations.StepRunsLatchedInstruction := by
  intro s r hp hreq hreset hstall hreads
  rw [step_of_no_reads hreset hreads, phaseStep_busy (t := advance s) hp]
  simp [busyStep, hstall, latched, hreq, advance]

/-- Settles O6: IDLE enables Accept, which needs a presented request. -/
theorem acceptLatchesPresentedRequest : Obligations.AcceptLatchesPresentedRequest := by
  intro s hp hreset hreads
  rw [step_of_no_reads hreset hreads, phaseStep_idle (t := advance s) hp]
  exact ⟨fun r hr => by simp [idleStep, hr, accept, advance], fun hn => by simp [idleStep, hn, advance]⟩

/-- Settles O7: DONE enables Deliver, which needs an acknowledge. -/
theorem deliverNeedsAcknowledge : Obligations.DeliverNeedsAcknowledge := by
  intro s hp hreset hreads
  rw [step_of_no_reads hreset hreads, phaseStep_done (t := advance s) hp]
  exact ⟨fun ha => by simp [doneStep, ha, deliver, advance], fun ha => by simp [doneStep, ha, advance]⟩

/-! ## The presented request outside IDLE -/

/-- Compute and Deliver do not look at the presented request. -/
theorem phaseStep_with_request {t : State} (ht : t.phase ≠ .idle) (p : Pins) (q : Option Request) :
    phaseStep { p with request := q } t = phaseStep p t := by
  cases hp : t.phase with
  | idle => exact absurd hp ht
  | busy => rw [phaseStep_busy hp, phaseStep_busy hp]; rfl
  | done => rw [phaseStep_done hp, phaseStep_done hp]; rfl

/-- The host's reads leave the phase as it is, so they do not open the step to the presented request. -/
theorem runStep_with_request {t : State} (ht : t.phase ≠ .idle) (p : Pins) (q : Option Request) :
    runStep { p with request := q } t = runStep p t := by
  cases hreads : hostReads t p.reads with
  | error e => simp [runStep, hreads]
  | ok u =>
    obtain ⟨vs, rfl⟩ := hostReads_ok hreads
    simpa [runStep, hreads] using phaseStep_with_request (t := { t with readings := t.readings ++ vs }) ht p q

/-- Settles O9: neither the reset step nor, outside IDLE, a step without reset looks at the presented request. -/
theorem presentedRequestIgnoredAfterAccept : Obligations.PresentedRequestIgnoredAfterAccept := by
  intro s p q rest hp
  obtain hr | hr := Bool.eq_false_or_eq_true p.reset
  · calc step { s with script := p :: rest }
        = resetStep p { s with script := rest } := step_script_cons_of_reset s rest hr
      _ = step { s with script := { p with request := q } :: rest } :=
          (step_script_cons_of_reset s (p := { p with request := q }) rest hr).symm
  · calc step { s with script := p :: rest }
        = runStep p { s with script := rest } := step_script_cons_of_not_reset s rest hr
      _ = runStep { p with request := q } { s with script := rest } :=
          (runStep_with_request (t := { s with script := rest }) hp p q).symm
      _ = step { s with script := { p with request := q } :: rest } :=
          (step_script_cons_of_not_reset s (p := { p with request := q }) rest hr).symm

/-! ## A whole transaction -/

/-- In BUSY a stalled environment uses up its steps and changes nothing else (R196). -/
theorem run_stalled (n k : Nat) (s : State) (rest : List Pins) (hp : s.phase = .busy)
    (hs : s.script = List.replicate n { Pins.quiet with stall := true } ++ rest) :
    core.run (n + k) s = core.run k { s with script := rest } := by
  induction n generalizing s with
  | zero =>
    have hrest : s.script = rest := by simpa using hs
    simp [← hrest]
  | succ n ih =>
    have hs' : s.script
        = { Pins.quiet with stall := true } :: (List.replicate n { Pins.quiet with stall := true } ++ rest) := hs
    have hpins := pins_of_script hs'
    have hstep : step s = .next (advance s) :=
      step_busy_stalled hp (by rw [hpins]; rfl) (by rw [hpins]; rfl) (by rw [hpins])
    rw [Nat.add_right_comm, run_succ hstep]
    exact ih (advance s) hp (by simp [hs'])

/-- Accept of the request presented at the head of the script. -/
theorem step_present {s : State} {r : Request} {rest : List Pins} (hp : s.phase = .idle)
    (hs : s.script = { Pins.quiet with request := some r } :: rest) :
    step s = .next { s with script := rest, phase := .busy, req := some r } := by
  have hpins := pins_of_script hs
  obtain ⟨haccept, -⟩ := acceptLatchesPresentedRequest s hp (by rw [hpins]; rfl) (by rw [hpins]; rfl)
  simpa [hs] using haccept r (by rw [hpins])

/-- Compute of the latched request while the environment waits. -/
theorem step_compute {s : State} {r : Request} {rest : List Pins} (hp : s.phase = .busy) (hreq : s.req = some r)
    (hs : s.script = Pins.quiet :: rest) :
    step s = .next { s with script := rest, phase := .done, resp := responseOf s.config r } := by
  have hpins := pins_of_script hs
  rw [stepRunsLatchedInstruction s r hp hreq (by rw [hpins]; rfl) (by rw [hpins]; rfl) (by rw [hpins]; rfl),
    exec_decode]
  simp [hs, finished]

/-- Deliver of the latched response to an environment that acknowledges it. -/
theorem step_acknowledge {s : State} {rest : List Pins} (hp : s.phase = .done)
    (hs : s.script = { Pins.quiet with respReady := true } :: rest) :
    step s = .next { s with script := rest, phase := .idle, delivered := s.delivered ++ [visible s.resp] } := by
  have hpins := pins_of_script hs
  obtain ⟨hdeliver, -⟩ := deliverNeedsAcknowledge s hp (by rw [hpins]; rfl) (by rw [hpins]; rfl)
  simpa [hs] using hdeliver (by rw [hpins])

/-- Settles O13: Accept, the n stalled steps, Compute and Deliver, one after the other. -/
theorem transactionCompletesAfterAnyLatency : Obligations.TransactionCompletesAfterAnyLatency := by
  intro s r n rest hp hs
  rw [run_succ (step_present hp hs), run_stalled n 2 _ _ rfl rfl, run_succ (step_compute rfl rfl rfl),
    run_succ (step_acknowledge rfl rfl), run_zero]

/-! ## The invariant of a run -/

theorem inv_resetBlock {s : State} (h : Inv s) : Inv (resetBlock s) := by
  obtain ⟨-, hdelivered⟩ := h
  exact ⟨trivial, hdelivered⟩

theorem inv_accept {s : State} (h : Inv s) (r : Request) : Inv (accept s r) := by
  obtain ⟨-, hdelivered⟩ := h
  exact ⟨rfl, hdelivered⟩

/-- Compute makes the response latch the response of the latched request. -/
theorem inv_finished {s : State} (h : Inv s) {r : Request} (hreq : s.req = some r) :
    Inv (finished s (responseOf s.config r)) := by
  obtain ⟨-, hdelivered⟩ := h
  exact ⟨⟨r, hreq, rfl⟩, hdelivered⟩

/-- Deliver adds the response of the latched request, which is what the latch holds in DONE. -/
theorem inv_deliver {s : State} (h : Inv s) (hp : s.phase = .done) : Inv (deliver s) := by
  obtain ⟨hconsistent, hdelivered⟩ := h
  have hlatch : ∃ r, s.req = some r ∧ s.resp = responseOf s.config r := by
    simpa [Consistent, hp] using hconsistent
  obtain ⟨r, -, hresp⟩ := hlatch
  refine ⟨trivial, fun d hd => ?_⟩
  rw [deliver_delivered, List.mem_append, List.mem_singleton] at hd
  cases hd with
  | inl hold => exact hdelivered d hold
  | inr hnew => exact ⟨r, by rw [hnew, hresp]; rfl⟩

/-- The environment's moves and the host's reads touch nothing the invariant speaks of. -/
theorem inv_advance_readings {s : State} (h : Inv s) (vs : List (RespField × Nat)) :
    Inv { advance s with readings := s.readings ++ vs } :=
  h

/-- Settles O3, by what a step can do: each of reset, Accept, Compute and Deliver keeps the invariant, on the state
after the host's reads. -/
theorem everyStepKeepsInvariant : Obligations.EveryStepKeepsInvariant := by
  intro s t hinv hstep
  obtain ⟨-, -, rfl⟩ | ⟨-, vs, u, hu, hcase⟩ := step_cases hstep
  · exact inv_resetBlock (s := advance s) hinv
  have hinvU : Inv u := hu ▸ inv_advance_readings hinv vs
  obtain ⟨-, r, -, rfl⟩ | ⟨-, -, rfl⟩ | ⟨-, -, rfl⟩ | ⟨-, -, r, hreq, hexec⟩ | ⟨hp, -, rfl⟩ | ⟨-, -, rfl⟩ := hcase
  · -- Accept
    exact inv_accept hinvU r
  · -- IDLE without a request
    exact hinvU
  · -- BUSY, stalled
    exact hinvU
  · -- Compute
    have hreqU : u.req = some r := by rw [hu]; exact hreq
    rw [eq_finished_of_exec_decode hexec]
    exact inv_finished hinvU hreqU
  · -- Deliver
    have hpU : u.phase = .done := by rw [hu]; exact hp
    exact inv_deliver hinvU hpU
  · -- DONE without an acknowledge
    exact hinvU

end Sys2Proof.Machine
end

section
/-! PROOFS. The responses a request can have, a failure or one of nine answers, with the lengths of
what they write and the fields that can be read. -/

namespace Sys2Proof.Machine

/-! ## Failures and answers -/

/-- A response that does not complete with OK: a status and nothing else (R40, R176). -/
def Failure (x : Response) : Prop :=
  ∃ st, st ≠ .ok ∧ x = statusOnly st

theorem failure_raise {st : Status} (h : st ≠ .ok) : Failure (raise st) :=
  ⟨st, h, raise_eq_statusOnly st⟩

/-- The responses with which a request completes with OK, by operation (R40). -/
inductive Answer (r : Request) : Response → Prop
  | command (ho : opOf r.op = .buildCommand) : Answer r (outResponse (vendorFrameOf r.a r.data))
  | inquiry (ho : opOf r.op = .buildUniversalInquiry) : Answer r (outResponse inquiryBytes)
  | vendor (ho : opOf r.op = .classify) (func : Byte) (rest : List Byte) (hd : r.data = vendorBytes func rest) :
      Answer r (vendorResult func rest)
  | universal (ho : opOf r.op = .classify) (func subfunc : Byte) (rest : List Byte)
      (hd : r.data = universalBytes func subfunc rest) : Answer r (universalResult func subfunc rest)
  | channel (ho : opOf r.op = .classify) (d0 d1 d2 : Byte) : Answer r (channelResult d0 d1 d2)
  | short (ho : opOf r.op = .classify) : Answer r shortResult
  | unpack (ho : opOf r.op = .unpack) : Answer r (outResponse (unpackBytes r.data))
  | combine (ho : opOf r.op = .combine) :
      Answer r { Response.empty with status := some .ok, value14 := some (combineValue r.a r.b) }
  | patch (ho : opOf r.op = .parsePatch) (h1 : 121 ≤ r.data.length)
      (h2 : 18 * (effectCountOf (memRead r.data 109 (by omega))).toNat ≤ r.data.length) :
      Answer r (parsedPatch r.data h1 h2)

/-- CLASSIFY always answers, and a frame's answer tells the frame's bytes apart (R109, R111). -/
theorem answer_classifyResponse {r : Request} (ho : opOf r.op = .classify) : Answer r (classifyResponse r.data) := by
  unfold classifyResponse
  split
  · next d0 d1 d2 d3 d4 rest hd =>
    split
    · next h =>
      obtain ⟨rfl, rfl, rfl, rfl⟩ := h
      exact .vendor ho d4 rest hd
    · split
      · next h =>
        obtain ⟨rfl, rfl, rfl⟩ := h
        exact .universal ho d3 d4 rest hd
      · exact .channel ho d0 d1 d2
  · exact .channel ho _ _ _
  · exact .short ho

theorem failure_or_answer_commandResponse {r : Request} (ho : opOf r.op = .buildCommand) :
    Failure (commandResponse r.a r.data) ∨ Answer r (commandResponse r.a r.data) := by
  obtain h | h := commandResponse_cases r.a r.data <;> rw [h]
  · exact .inr (.command ho)
  · exact .inl (failure_raise (by decide))

theorem failure_or_answer_combineResponse {r : Request} (ho : opOf r.op = .combine) :
    Failure (combineResponse r.a r.b) ∨ Answer r (combineResponse r.a r.b) := by
  obtain h | h := combineResponse_cases r.a r.b <;> rw [h]
  · exact .inr (.combine ho)
  · exact .inl (failure_raise (by decide))

theorem failure_or_answer_patchResponse {r : Request} (ho : opOf r.op = .parsePatch) :
    Failure (patchResponse r.data) ∨ Answer r (patchResponse r.data) := by
  obtain ⟨h1, h2, h⟩ | h := patchResponse_cases r.data <;> rw [h]
  · exact .inr (.patch ho h1 h2)
  · exact .inl (failure_raise (by decide))

/-- The common check passes an operation's own response on, within MAX_LEN, or fails. -/
theorem failure_or_answer_capped {c : Config} {r : Request} {x : Response} (h : Failure x ∨ Answer r x) :
    Failure (capped c r.len x) ∨ exceedsMax c r.len = false ∧ Answer r (capped c r.len x) := by
  cases he : exceedsMax c r.len with
  | false =>
    rw [capped_within he]
    exact h.imp_right fun ha => ⟨rfl, ha⟩
  | true =>
    rw [capped_exceeds he]
    exact .inl (failure_raise (by decide))

/-- Every request fails, or is within MAX_LEN and answered. -/
theorem responseOf_failure_or_answer (c : Config) (r : Request) :
    Failure (responseOf c r) ∨ exceedsMax c r.len = false ∧ Answer r (responseOf c r) := by
  cases ho : opOf r.op with
  | buildCommand =>
    rw [responseOf_buildCommand c ho]
    exact failure_or_answer_capped (failure_or_answer_commandResponse ho)
  | buildUniversalInquiry =>
    rw [responseOf_buildUniversalInquiry c ho]
    exact failure_or_answer_capped (.inr (.inquiry ho))
  | classify =>
    rw [responseOf_classify c ho]
    exact failure_or_answer_capped (.inr (answer_classifyResponse ho))
  | unpack =>
    rw [responseOf_unpack c ho]
    exact failure_or_answer_capped (.inr (.unpack ho))
  | combine =>
    rw [responseOf_combine c ho]
    exact failure_or_answer_capped (failure_or_answer_combineResponse ho)
  | parsePatch =>
    rw [responseOf_parsePatch c ho]
    exact failure_or_answer_capped (failure_or_answer_patchResponse ho)
  | reserved6 =>
    rw [responseOf_reserved c (.inl ho)]
    exact .inl (failure_raise (by decide))
  | reserved7 =>
    rw [responseOf_reserved c (.inr ho)]
    exact .inl (failure_raise (by decide))

/-! ## How much is written to `out` -/

/-- The most bytes an operation writes to `out` for `len` data bytes (R34). -/
def maxOut : Op → Nat → Nat
  | .buildCommand, len => len + 6
  | .buildUniversalInquiry, _ => 6
  | .classify, len => len - 6
  | .unpack, len => len
  | _, _ => 0

theorem maxOut_le (o : Op) (len : Nat) : maxOut o len ≤ len + 6 := by
  cases o <;> simp only [maxOut] <;> omega

/-- UNPACK writes no more bytes than it reads (R34): each group loses its mask byte. -/
theorem unpackBytes_length_le (D : List Byte) : (unpackBytes D).length ≤ D.length := by
  by_cases h : D = []
  · simp [h]
  · have hpos : 0 < D.length := List.length_pos_iff.2 h
    have hrest := unpackBytes_length_le (D.drop 8)
    rw [unpackBytes_of_ne_nil D h, List.length_append, unpackGroup_length, List.length_take]
    rw [List.length_drop] at hrest
    omega
termination_by D.length
decreasing_by simp; omega

/-- R34: what an answer writes to `out` is at most what its operation may write. -/
theorem Answer.out_length_le {r : Request} {x : Response} (h : Answer r x) {bytes : List Byte}
    (hout : x.out = some bytes) : bytes.length ≤ maxOut (opOf r.op) r.len := by
  cases h with
  | command ho =>
    obtain rfl : vendorFrameOf r.a r.data = bytes := Option.some.inj hout
    simp [ho, maxOut, vendorFrameOf, vendorBytes]
  | inquiry ho =>
    obtain rfl : inquiryBytes = bytes := Option.some.inj hout
    simp [ho, maxOut, inquiryBytes]
  | vendor ho func rest hd =>
    obtain rfl : rest.dropLast = bytes := Option.some.inj hout
    simp [ho, maxOut, Request.len, hd, vendorBytes]
  | universal ho func subfunc rest hd =>
    obtain rfl : rest.dropLast = bytes := Option.some.inj hout
    simp [ho, maxOut, Request.len, hd, universalBytes]
  | channel ho =>
    obtain rfl : [] = bytes := Option.some.inj hout
    simp
  | short ho =>
    obtain rfl : [] = bytes := Option.some.inj hout
    simp
  | unpack ho =>
    obtain rfl : unpackBytes r.data = bytes := Option.some.inj hout
    simpa [ho, maxOut] using unpackBytes_length_le r.data
  | combine => cases hout
  | patch => cases hout

/-- Only a request within MAX_LEN writes to `out`, and no more than its operation may (R34, R170). -/
theorem responseOf_out {c : Config} {r : Request} {bytes : List Byte} (h : (responseOf c r).out = some bytes) :
    exceedsMax c r.len = false ∧ bytes.length ≤ maxOut (opOf r.op) r.len := by
  obtain ⟨st, -, hx⟩ | ⟨hle, hx⟩ := responseOf_failure_or_answer c r
  · rw [hx] at h
    cases h
  · exact ⟨hle, hx.out_length_le h⟩

/-- Settles O29, from R34's bound per operation and the capacity check that a written `out` has passed. -/
theorem outLengthIsBounded : Obligations.OutLengthIsBounded := by
  intro r s t bytes hexec hout
  rw [eq_finished_of_exec_decode hexec, finished_resp] at hout
  obtain ⟨hle, hbound⟩ := responseOf_out hout
  have hwithin : withinMax s r.len := (exceedsMax_eq_false_iff s r.len).1 hle
  have hmost : bytes.length ≤ r.len + 6 := hbound.trans (maxOut_le _ _)
  refine ⟨hmost, fun hop => ?_, fun hop => ?_, buffered_eq_self hwithin,
    fun m hm => ⟨hwithin m hm, hmost.trans (Nat.add_le_add_right (hwithin m hm) 6)⟩,
    fun w hw => lt_two_pow_lenW hwithin hw, fun w hw => lt_two_pow_outLenW hwithin hmost hw⟩
  · have hunpack : opOf r.op = .unpack := opOf_eq_iff.2 hop
    rwa [hunpack] at hbound
  · have hclassify : opOf r.op = .classify := opOf_eq_iff.2 hop
    rwa [hclassify] at hbound

/-! ## Which fields can be read -/

/-- A response whose readable fields are exactly those R40 lists for the operation. -/
def ReadsAsListed (o : Op) (x : Response) : Prop :=
  ∀ f, (readValue x f).isSome = true ↔ listed o x f = true

/-- Byte i of `out` is listed where `out` is and has a byte i (R40). -/
theorem listed_outByte_iff {x : Response} (h : x.status = some .ok) (o : Op) (i : Nat) :
    listed o x (.outByte i) = true
      ↔ x.cls ≠ some .noMatch ∧ o ≠ .combine ∧ o ≠ .parsePatch ∧ i < (x.out.getD []).length := by
  simp [listed, h, listedOk, and_assoc]

/-- Byte j of `name` is listed for a Patch whose name has a byte j (R40). -/
theorem listed_nameByte_iff {x : Response} (h : x.status = some .ok) (o : Op) (j : Nat) :
    listed o x (.nameByte j) = true ↔ o = .parsePatch ∧ j < (x.name.getD []).length := by
  simp [listed, h, listedOk]

theorem readsAsListed_statusOnly {st : Status} (h : st ≠ .ok) (o : Op) : ReadsAsListed o (statusOnly st) := by
  intro f
  cases f <;> simp [readValue, visible, fieldValue, listed, statusOnly, slotOf, h]

theorem readsAsListed_outResponse {o : Op}
    (ho : o = .buildCommand ∨ o = .buildUniversalInquiry ∨ o = .unpack) (bytes : List Byte) :
    ReadsAsListed o (outResponse bytes) := by
  intro f
  cases f with
  | outByte i =>
    rw [listed_outByte_iff rfl]
    obtain rfl | rfl | rfl := ho <;> simp [readValue, visible, fieldValue, outResponse]
  | _ =>
    obtain rfl | rfl | rfl := ho <;>
      simp [readValue, visible, fieldValue, listed, listedOk, outResponse, slotOf]

theorem readsAsListed_vendorResult (func : Byte) (rest : List Byte) :
    ReadsAsListed .classify (vendorResult func rest) := by
  intro f
  cases f <;> simp [readValue, visible, fieldValue, listed, listedOk, vendorResult, slotOf]

theorem readsAsListed_universalResult (func subfunc : Byte) (rest : List Byte) :
    ReadsAsListed .classify (universalResult func subfunc rest) := by
  intro f
  cases f <;> simp [readValue, visible, fieldValue, listed, listedOk, universalResult, slotOf]

theorem readsAsListed_channelResult (d0 d1 d2 : Byte) : ReadsAsListed .classify (channelResult d0 d1 d2) := by
  intro f
  cases f <;> simp [readValue, visible, fieldValue, listed, listedOk, channelResult, slotOf]

theorem readsAsListed_shortResult : ReadsAsListed .classify shortResult := by
  intro f
  cases f <;> simp [readValue, visible, fieldValue, listed, listedOk, shortResult, slotOf]

theorem readsAsListed_combine (v : BitVec 14) :
    ReadsAsListed .combine { Response.empty with status := some .ok, value14 := some v } := by
  intro f
  cases f <;> simp [readValue, visible, fieldValue, listed, listedOk, slotOf]

theorem readsAsListed_parsedPatch (D : List Byte) (h1 : 121 ≤ D.length)
    (h2 : 18 * (effectCountOf (memRead D 109 (by omega))).toNat ≤ D.length) :
    ReadsAsListed .parsePatch (parsedPatch D h1 h2) := by
  intro f
  cases f with
  | nameByte j =>
    rw [listed_nameByte_iff rfl]
    simp [readValue, visible, fieldValue, parsedPatch]
  | _ => simp [readValue, visible, fieldValue, listed, listedOk, parsedPatch, slotOf]

theorem Answer.readsAsListed {r : Request} {x : Response} (h : Answer r x) : ReadsAsListed (opOf r.op) x := by
  cases h with
  | command ho => exact ho ▸ readsAsListed_outResponse (.inl rfl) _
  | inquiry ho => exact ho ▸ readsAsListed_outResponse (.inr (.inl rfl)) _
  | vendor ho func rest => exact ho ▸ readsAsListed_vendorResult func rest
  | universal ho func subfunc rest => exact ho ▸ readsAsListed_universalResult func subfunc rest
  | channel ho d0 d1 d2 => exact ho ▸ readsAsListed_channelResult d0 d1 d2
  | short ho => exact ho ▸ readsAsListed_shortResult
  | unpack ho => exact ho ▸ readsAsListed_outResponse (.inr (.inr rfl)) _
  | combine ho => exact ho ▸ readsAsListed_combine _
  | patch ho h1 h2 => exact ho ▸ readsAsListed_parsedPatch r.data h1 h2

/-- Settles O28, response by response: a failure holds its status alone, and each answer the fields of its operation. -/
theorem readableFieldsAreTheListedOnes : Obligations.ReadableFieldsAreTheListedOnes := by
  intro r s t f hexec
  rw [eq_finished_of_exec_decode hexec, finished_resp]
  obtain ⟨st, hst, hx⟩ | ⟨-, hx⟩ := responseOf_failure_or_answer s.config r
  · rw [hx]
    exact readsAsListed_statusOnly hst _ f
  · exact hx.readsAsListed f

end Sys2Proof.Machine
end

section
/-! PROOFS. The host's reads leave the block as it is (R60), and a run of several transactions answers them in order
(R63). -/

namespace Sys2Proof.Machine

/-! ## What the host has read -/

/-- Settles O11, by what a step can do: the same step without reads does the same thing, on a state that differs in the
readings alone. -/
theorem readsHaveNoSideEffects : Obligations.ReadsHaveNoSideEffects := by
  intro s t p rest hstep
  let s' : State := { s with script := { p with reads := [] } :: rest }
  obtain ⟨hreset, -, rfl⟩ | ⟨hreset, vs, u, rfl, hcase⟩ := step_cases hstep
  · exact ⟨_, step_script_cons_of_reset s (p := { p with reads := [] }) rest hreset, ⟨rfl, rfl, rfl⟩, rfl, rfl⟩
  obtain ⟨hp, r, hr, rfl⟩ | ⟨hp, hr, rfl⟩ | ⟨hp, hstall, rfl⟩ | ⟨hp, hstall, r, hreq, hexec⟩ | ⟨hp, hack, rfl⟩ |
    ⟨hp, hack, rfl⟩ := hcase
  · -- Accept
    obtain ⟨haccept, -⟩ := acceptLatchesPresentedRequest s' hp hreset rfl
    exact ⟨_, haccept r hr, ⟨rfl, rfl, rfl⟩, rfl, rfl⟩
  · -- IDLE without a request
    obtain ⟨-, hwait⟩ := acceptLatchesPresentedRequest s' hp hreset rfl
    exact ⟨_, hwait hr, ⟨rfl, rfl, rfl⟩, rfl, rfl⟩
  · -- BUSY, stalled
    exact ⟨_, step_busy_stalled (s := s') hp hreset rfl hstall, ⟨rfl, rfl, rfl⟩, rfl, rfl⟩
  · -- Compute
    have hcompute := stepRunsLatchedInstruction s' r hp hreq hreset hstall rfl
    rw [exec_decode] at hcompute
    rw [eq_finished_of_exec_decode hexec]
    exact ⟨_, hcompute, ⟨rfl, rfl, rfl⟩, rfl, rfl⟩
  · -- Deliver
    obtain ⟨hdeliver, -⟩ := deliverNeedsAcknowledge s' hp hreset rfl
    exact ⟨_, hdeliver hack, ⟨rfl, rfl, rfl⟩, rfl, rfl⟩
  · -- DONE without an acknowledge
    obtain ⟨-, hwait⟩ := deliverNeedsAcknowledge s' hp hreset rfl
    exact ⟨_, hwait hack, ⟨rfl, rfl, rfl⟩, rfl, rfl⟩

/-! ## Runs of several transactions -/

/-- A run that does not stop has an answered first step. -/
theorem step_of_run_succ {n : Nat} {s t : State} (h : core.run (n + 1) s = .next t) :
    ∃ u, step s = .next u ∧ core.run n u = .next t := by
  cases hs : step s with
  | next u => exact ⟨u, rfl, (run_succ hs).symm.trans h⟩
  | fault e => simp [Host.Core.run, show core.step s = .fault e from hs] at h
  | refused x => simp [Host.Core.run, show core.step s = .refused x from hs] at h

/-- A run goes on from where a first part of it has come to. -/
theorem run_add {m : Nat} {s t : State} (h : core.run m s = .next t) (n : Nat) :
    core.run (m + n) s = core.run n t := by
  induction m generalizing s with
  | zero =>
    cases (run_zero s).symm.trans h
    rw [Nat.zero_add]
  | succ m ih =>
    obtain ⟨u, hstep, hrest⟩ := step_of_run_succ h
    rw [Nat.add_right_comm, run_succ hstep, ih hrest]

/-- One transaction without delay takes three steps and delivers the response of its request (R26). -/
theorem run_transaction {s : State} {r : Request} {rest : List Pins} (hp : s.phase = .idle)
    (hs : s.script = transactionPins r ++ rest) :
    ∃ u : State, core.run 3 s = .next u ∧ u.phase = .idle ∧ u.script = rest ∧ u.config = s.config ∧
      u.readings = s.readings ∧ u.delivered = s.delivered ++ [visible (responseOf s.config r)] :=
  ⟨_, transactionCompletesAfterAnyLatency s r 0 rest hp hs, rfl, rfl, rfl, rfl, rfl⟩

/-- Settles O14, by induction on the requests: the others start in the IDLE state that the first transaction leaves. -/
theorem responsesAreDeliveredInOrder : Obligations.ResponsesAreDeliveredInOrder := by
  intro rs
  induction rs with
  | nil => exact fun s rest hp hs => ⟨s, rfl, hp, hs, rfl, rfl, by simp⟩
  | cons r rs ih =>
    intro s rest hp hs
    obtain ⟨u, hfirst, hpU, hsU, hcU, hrU, hdU⟩ :=
      run_transaction (r := r) (rest := rs.flatMap transactionPins ++ rest) hp (by simpa using hs)
    obtain ⟨t, hothers, hpT, hsT, hcT, hrT, hdT⟩ := ih u rest hpU hsU
    refine ⟨t, ?_, hpT, hsT, hcT.trans hcU, hrT.trans hrU, by simp [hdT, hdU, hcU]⟩
    rw [List.length_cons, Nat.mul_succ, Nat.add_comm, run_add hfirst, hothers]

end Sys2Proof.Machine
end

section
/-! PROOFS. Value14 and its two 7-bit digits, low first (R52): PARAM_CHANGE sends them and COMBINE puts them together. -/

namespace Sys2Proof.Machine

theorem legal_ofNat {n : Nat} (h : n ≤ 127) : legal (BitVec.ofNat 8 n) = true := by
  rw [legal_iff, BitVec.toNat_ofNat]
  omega

theorem not_legal_ofNat {n : Nat} (h : 127 < n) (hb : n ≤ 255) : legal (BitVec.ofNat 8 n) = false := by
  rw [← Bool.not_eq_true, legal_iff, BitVec.toNat_ofNat]
  omega

/-- The low digit of a Value14 (R52). -/
theorem and_7F_eq_mod (v : Nat) : v &&& 0x7F = v % 128 :=
  Nat.and_two_pow_sub_one_eq_mod v 7

/-- The high digit of a Value14 (R52). -/
theorem shiftRight_7_eq_div (v : Nat) : v >>> 7 = v / 128 :=
  Nat.shiftRight_eq_div_pow v 7

/-- COMBINE's formula on the two digits of v. -/
theorem combineValue_digits {v : Nat} (h : v ≤ 16383) :
    combineValue (BitVec.ofNat 8 (v % 128)) (BitVec.ofNat 8 (v / 128)) = BitVec.ofNat 14 v := by
  have hlow : (BitVec.ofNat 8 (v % 128)).toNat = v % 128 := by rw [BitVec.toNat_ofNat]; omega
  have hhigh : (BitVec.ofNat 8 (v / 128)).toNat = v / 128 := by rw [BitVec.toNat_ofNat]; omega
  rw [combineValue, hlow, hhigh, or_shiftLeft_eq_add _ _ 7 (by omega)]
  congr 1
  omega

/-- COMBINE of two legal digits answers their Value14 (R133). -/
theorem combineResponse_of_legal {low high : Byte} (hlow : legal low = true) (hhigh : legal high = true) :
    combineResponse low high
      = { Response.empty with status := some .ok, value14 := some (combineValue low high) } := by
  simp [combineResponse, hlow, hhigh]

/-- Settles O49: both digits are legal, and COMBINE's formula takes them back to v. -/
theorem combineInvertsSplit : Obligations.CombineInvertsSplit := by
  intro v len s hv hlen
  have hlow : legal (BitVec.ofNat 8 (v % 128)) = true := legal_ofNat (by omega)
  have hhigh : legal (BitVec.ofNat 8 (v / 128)) = true := legal_ofNat (by omega)
  rw [exec_combine, compute_within hlen, and_7F_eq_mod, shiftRight_7_eq_div, combineResponse_of_legal hlow hhigh,
    combineValue_digits hv]

theorem paramChange_of_le {e p v : Nat} (he : e ≤ 255) (hp : p ≤ 255) (hv : v ≤ 16383) :
    paramChange e p v = some (.cmdParameterChange
      [BitVec.ofNat 8 e, BitVec.ofNat 8 p, BitVec.ofNat 8 (v % 128), BitVec.ofNat 8 (v / 128)]) := by
  rw [← and_7F_eq_mod, ← shiftRight_7_eq_div]
  exact if_pos ⟨by omega, by omega, hv⟩

/-- A BUILD_COMMAND of legal bytes sends its frame (R102). -/
theorem commandResponse_of_legal {func : Byte} {payload : List Byte} (hf : legal func = true)
    (hp : allLegal payload = true) : commandResponse func payload = outResponse (vendorFrameOf func payload) := by
  simp [commandResponse, hf, hp]

/-- A BUILD_COMMAND with an illegal payload byte is out of range (R101). -/
theorem commandResponse_of_not_legal {func x : Byte} {payload : List Byte} (hx : x ∈ payload)
    (h : legal x = false) : commandResponse func payload = raise .valueOutOfRange := by
  have hall : allLegal payload = false := List.all_eq_false.2 ⟨x, hx, by simp [h]⟩
  simp [commandResponse, hall]

theorem exec_cmdParameterChange_of_withinMax {s : State} (h : withinMax s 4) (b0 b1 b2 b3 : Byte) :
    exec (.cmdParameterChange [b0, b1, b2, b3]) s
      = .next (finished s (commandResponse (commandCode .parameterChange) [b0, b1, b2, b3])) :=
  compute_within h _

/-- Settles O35: the digits of v are always legal, so the range check is that of e and p. -/
theorem paramChangeSendsValue14Digits : Obligations.ParamChangeSendsValue14Digits := by
  intro e p v s hmax
  refine ⟨fun he hp hv => ?legal, fun he hp hv hout => ?outOfRange, fun hv => if_neg fun h => ?tooLarge⟩
  case legal =>
    have hall : allLegal [BitVec.ofNat 8 e, BitVec.ofNat 8 p, BitVec.ofNat 8 (v % 128), BitVec.ofNat 8 (v / 128)] := by
      simp [allLegal, legal_ofNat he, legal_ofNat hp, legal_ofNat (n := v % 128) (by omega),
        legal_ofNat (n := v / 128) (by omega)]
    refine ⟨_, paramChange_of_le (by omega) (by omega) hv, ?_⟩
    rw [exec_cmdParameterChange_of_withinMax hmax, commandResponse_of_legal (legal_commandCode _) hall]
    rfl
  case outOfRange =>
    refine ⟨_, paramChange_of_le he hp hv, ?_⟩
    rw [exec_cmdParameterChange_of_withinMax hmax, ← raise_eq_statusOnly]
    cases hout with
    | inl h => rw [commandResponse_of_not_legal (x := BitVec.ofNat 8 e) (by simp) (not_legal_ofNat h he)]
    | inr h => rw [commandResponse_of_not_legal (x := BitVec.ofNat 8 p) (by simp) (not_legal_ofNat h hp)]
  case tooLarge =>
    obtain ⟨-, -, hle⟩ := h
    omega

end Sys2Proof.Machine
end

section
/-! PROOFS. The stream bits of a byte sequence are the binary digits of its little-endian integer (R58). -/

namespace Sys2Proof.Machine

theorem streamBit_cons_of_lt (x : Byte) (s : List Byte) {k : Nat} (h : k < 8) :
    streamBit (x :: s) k = x.toNat.testBit k := by
  simp [streamBit, Nat.div_eq_of_lt h, Nat.mod_eq_of_lt h]

theorem streamBit_cons_add_eight (x : Byte) (s : List Byte) (k : Nat) :
    streamBit (x :: s) (k + 8) = streamBit s k := by
  simp [streamBit]

/-- Stream bit k is binary digit k of the little-endian integer: a byte holds the lowest eight, and the bytes after it
the others. -/
theorem streamBit_eq_testBit (s : List Byte) (k : Nat) : streamBit s k = (littleEndian s).testBit k := by
  induction s generalizing k with
  | nil => simp [streamBit, littleEndian]
  | cons x s ih =>
    have hN : littleEndian (x :: s) = 2 ^ 8 * littleEndian s + x.toNat := Nat.add_comm _ _
    rw [hN, Nat.testBit_two_pow_mul_add _ x.isLt]
    split
    · next hk => exact streamBit_cons_of_lt x s hk
    · next hk =>
      obtain ⟨j, rfl⟩ := Nat.exists_eq_add_of_le' (Nat.le_of_not_lt hk)
      rw [streamBit_cons_add_eight, ih, Nat.add_sub_cancel]

/-- Settles O55, by induction on the width: one bit more of the field is one binary digit more of the integer. -/
theorem streamFieldIsSliceOfInteger : Obligations.StreamFieldIsSliceOfInteger := by
  intro s lo w
  rw [Nat.and_two_pow_sub_one_eq_mod]
  induction w with
  | zero => simp [streamField_zero, Nat.mod_one]
  | succ w ih =>
    rw [streamField_succ, ih, streamBit_eq_testBit, ← Nat.testBit_shiftRight, Nat.toNat_testBit, Nat.shiftLeft_eq,
      Nat.mul_comm, Nat.mod_pow_succ]

end Sys2Proof.Machine
end

section
/-! PROOFS. The decoder and the encoder (R67 to R78): decoding inverts encoding on the well-formed names, and every
request has such a name; what the op field alone selects, and the effect of the row a request is named by. -/

namespace Sys2Proof.Machine

/-! ## What each check of `wellFormed` says -/

theorem wellFormed_buildCommand_iff (func : Byte) (payload : List Byte) :
    wellFormed (.buildCommand func payload) = true ↔ commandOf func = none := by
  simp [wellFormed]

theorem wellFormed_classify_iff (bytes : List Byte) : wellFormed (.classify bytes) = true ↔ bytes.length < 3 := by
  simp [wellFormed]

theorem wellFormed_universalFrame_iff (func subfunc : Byte) (rest : List Byte) :
    wellFormed (.universalFrame func subfunc rest) = true ↔ func ≠ generalInfoFunc := by
  simp [wellFormed]

theorem wellFormed_generalInfo_iff (subfunc : Byte) (rest : List Byte) :
    wellFormed (.generalInfo subfunc rest) = true ↔ ¬ (subfunc = inquirySubfunc ∧ rest = [sysexEnd]) := by
  simp [wellFormed, imp_iff_not_or]

/-- A message of fewer than five bytes passes neither header test. -/
theorem wellFormed_channelMessage_of_short {rest : List Byte} (h : rest.length < 2) (d0 d1 d2 : Byte) :
    wellFormed (.channelMessage d0 d1 d2 rest) = true := by
  simp [wellFormed, Nat.not_le.2 h]

/-- A message of five bytes or more must fail both header tests (R107, R108). -/
theorem wellFormed_channelMessage_iff (d0 d1 d2 d3 d4 : Byte) (rest : List Byte) :
    wellFormed (.channelMessage d0 d1 d2 (d3 :: d4 :: rest)) = true ↔
      ¬ (d0 = sysexStart ∧ d1 = vendor1 ∧ d2 = vendor2 ∧ d3 = vendor3) ∧
      ¬ (d0 = sysexStart ∧ d1 = universal1 ∧ d2 = universal2) := by
  simp [wellFormed, imp_iff_not_or, or_assoc]

/-! ## BUILD_COMMAND requests: the branches of `decodeBuild` -/

theorem decodeBuild_commandCode (n : CommandName) (payload : List Byte) :
    decodeBuild (commandCode n) payload = commandInstr n payload := by
  simp [decodeBuild]

theorem decodeBuild_of_unnamed {func : Byte} (h : commandOf func = none) (payload : List Byte) :
    decodeBuild func payload = .buildCommand func payload := by
  simp [decodeBuild, h]

theorem wellFormed_commandInstr (n : CommandName) (payload : List Byte) :
    wellFormed (commandInstr n payload) = true := by
  cases n <;> rfl

theorem wellFormed_decodeBuild (func : Byte) (payload : List Byte) :
    wellFormed (decodeBuild func payload) = true := by
  cases h : commandOf func with
  | some n =>
    rw [← commandCode_of_commandOf h, decodeBuild_commandCode]
    exact wellFormed_commandInstr n payload
  | none =>
    rw [decodeBuild_of_unnamed h]
    exact (wellFormed_buildCommand_iff func payload).2 h

/-! ## CLASSIFY requests: the branches of `decodeFrame` -/

theorem decodeFrame_of_short : ∀ {bytes : List Byte}, bytes.length < 3 → decodeFrame bytes = .classify bytes
  | [], _ | [_], _ | [_, _], _ => rfl
  | _ :: _ :: _ :: _, h => absurd h (by simp)

theorem decodeFrame_vendorBytes (func : Byte) (rest : List Byte) :
    decodeFrame (vendorBytes func rest) = .vendorFrame func rest := rfl

theorem decodeFrame_universalBytes {func : Byte} (h : func ≠ generalInfoFunc) (subfunc : Byte) (rest : List Byte) :
    decodeFrame (universalBytes func subfunc rest) = .universalFrame func subfunc rest :=
  if_neg h

theorem decodeFrame_generalInfo {subfunc : Byte} {rest : List Byte}
    (h : ¬ (subfunc = inquirySubfunc ∧ rest = [sysexEnd])) :
    decodeFrame (universalBytes generalInfoFunc subfunc rest) = .generalInfo subfunc rest :=
  if_neg h

theorem decodeFrame_inquiryBytes : decodeFrame inquiryBytes = .universalInquiry := rfl

theorem decodeFrame_channelMessage (d0 d1 d2 : Byte) :
    ∀ {rest : List Byte}, wellFormed (.channelMessage d0 d1 d2 rest) = true →
      decodeFrame (d0 :: d1 :: d2 :: rest) = .channelMessage d0 d1 d2 rest
  | [], _ | [_], _ => rfl
  | d3 :: d4 :: rest, h => by
    obtain ⟨hvendor, huniversal⟩ := (wellFormed_channelMessage_iff d0 d1 d2 d3 d4 rest).1 h
    rw [decodeFrame, if_neg hvendor, if_neg huniversal]

/-- Each branch of `decodeFrame` is taken where the tests of the more specific rows have failed. -/
theorem wellFormed_decodeFrame : ∀ bytes : List Byte, wellFormed (decodeFrame bytes) = true
  | [] | [_] | [_, _] => rfl
  | [d0, d1, d2] => wellFormed_channelMessage_of_short (rest := []) (by decide) d0 d1 d2
  | [d0, d1, d2, d3] => wellFormed_channelMessage_of_short (rest := [d3]) (by simp) d0 d1 d2
  | d0 :: d1 :: d2 :: d3 :: d4 :: rest => by
    rw [decodeFrame]
    split
    · rfl
    · next hvendor =>
      split
      · split
        · split
          · rfl
          · next hinquiry => exact (wellFormed_generalInfo_iff d4 rest).2 hinquiry
        · next hinfo => exact (wellFormed_universalFrame_iff d3 d4 rest).2 hinfo
      · next huniversal => exact (wellFormed_channelMessage_iff d0 d1 d2 d3 d4 rest).2 ⟨hvendor, huniversal⟩

/-! ## The round trip -/

/-- Settles O17, row by row: each check of `wellFormed` is the test that takes `decode` to the row's own branch. -/
theorem decodeOfEncodeIsIdentity : Obligations.DecodeOfEncodeIsIdentity := by
  intro i h
  cases i with
  | buildCommand func payload =>
    exact decodeBuild_of_unnamed ((wellFormed_buildCommand_iff func payload).1 h) payload
  | classify bytes => exact decodeFrame_of_short ((wellFormed_classify_iff bytes).1 h)
  | universalFrame func subfunc rest =>
    exact decodeFrame_universalBytes ((wellFormed_universalFrame_iff func subfunc rest).1 h) subfunc rest
  | generalInfo subfunc rest => exact decodeFrame_generalInfo ((wellFormed_generalInfo_iff subfunc rest).1 h)
  | channelMessage d0 d1 d2 rest => exact decodeFrame_channelMessage d0 d1 d2 h
  | vendorFrame func rest => exact decodeFrame_vendorBytes func rest
  | universalInquiry => exact decodeFrame_inquiryBytes
  | buildUniversalInquiry len =>
    exact congrArg Instr.buildUniversalInquiry (List.length_replicate ..)
  | combine low high len => exact congrArg (Instr.combine low high) (List.length_replicate ..)
  | unpack stream => rfl
  | parsePatch buffer => rfl
  | reserved6 => rfl
  | reserved7 => rfl
  | cmdSendPatch p => exact decodeBuild_commandCode .sendPatch p
  | cmdRequestPatch p => exact decodeBuild_commandCode .requestPatch p
  | cmdSendCurrentPatch p => exact decodeBuild_commandCode .sendCurrentPatch p
  | cmdRequestCurrentPatch p => exact decodeBuild_commandCode .requestCurrentPatch p
  | cmdParameterChange p => exact decodeBuild_commandCode .parameterChange p
  | cmdStorePatch p => exact decodeBuild_commandCode .storePatch p
  | cmdRequestCurrentProgram p => exact decodeBuild_commandCode .requestCurrentProgram p
  | cmdEnableParameterChange p => exact decodeBuild_commandCode .enableParameterChange p
  | cmdDisableParameterChange p => exact decodeBuild_commandCode .disableParameterChange p

/-- Settles O18: only the rows of BUILD_COMMAND and CLASSIFY have a check, and each decodes past its own. -/
theorem everyRequestDecodesWellFormed : Obligations.EveryRequestDecodesWellFormed := by
  intro r
  unfold decode
  cases opOf r.op with
  | buildCommand => exact wellFormed_decodeBuild r.a r.data
  | classify => exact wellFormed_decodeFrame r.data
  | _ => rfl

/-- Settles O16: the eleven words are closed, and the decoder computes on them. -/
theorem knownWordsDecode : Obligations.KnownWordsDecode := by
  unfold Obligations.KnownWordsDecode
  decide

/-- Settles O19: a select is the bits of its operation, whose row `decodeOp` gives. -/
theorem opFieldSelectsOperation : Obligations.OpFieldSelectsOperation := by
  rintro ⟨op, a, b, data⟩
  refine ⟨?_, ?_, ?_, ?_, ?_, ?_, ?_, ?_⟩ <;>
    · rintro rfl
      rfl

/-- Settles O20: the rows the decoder names are the op rows but for BUILD_COMMAND's and CLASSIFY's, which `exec` runs as
the op row. -/
theorem namedRowHasOpRowEffect : Obligations.NamedRowHasOpRowEffect :=
  exec_decode_eq_exec_decodeOp

/-- Settles O21: the named row has the op row's effect, and each op row completes with the response of R69. -/
theorem computeFollowsDecodeSteps : Obligations.ComputeFollowsDecodeSteps :=
  exec_decode

/-! ## The codes a host reads (R70, R71) -/

@[simp] theorem readValue_status (r : Response) :
    readValue r .status = r.status.map fun st => (statusCode st).toNat := by
  unfold readValue visible
  split <;> rfl

@[simp] theorem readValue_cls (r : Response) : readValue r .cls = r.cls.map fun c => (clsCode c).toNat := by
  unfold readValue visible
  split <;> rfl

theorem statusCode_le (st : Status) : (statusCode st).toNat ≤ 4 := by
  cases st <;> decide

theorem clsCode_le (c : Cls) : (clsCode c).toNat ≤ 2 := by
  cases c <;> decide

/-- Settles O23: a read of `status` or `cls` is the code of the value held, and the codes are bounded. -/
theorem statusAndClsCodes : Obligations.StatusAndClsCodes := by
  refine ⟨fun r => ?codes, fun r v => ⟨fun h => ?status, fun h => ?cls⟩⟩
  case codes =>
    simp +contextual [statusCode, clsCode]
  case status =>
    obtain ⟨st, -, rfl⟩ := Option.map_eq_some_iff.1 (readValue_status r ▸ h)
    exact statusCode_le st
  case cls =>
    obtain ⟨c, -, rfl⟩ := Option.map_eq_some_iff.1 (readValue_cls r ▸ h)
    exact clsCode_le c

end Sys2Proof.Machine
end

section
/-! PROOFS. The catalog commands are BUILD_COMMAND with their func byte (R98), and complete with their frame on every
legal payload (R102). -/

namespace Sys2Proof.Machine

/-- The row of a catalog command runs BUILD_COMMAND with the command's code (R98). -/
theorem exec_commandInstr (n : CommandName) (p : List Byte) (s : State) :
    exec (commandInstr n p) s = exec (.buildCommand (commandCode n) p) s := by
  cases n <;> rfl

/-- Settles O33, command by command: the codes are those of R77. -/
theorem catalogCommandsAreBuildCommand : Obligations.CatalogCommandsAreBuildCommand := by
  intro p s
  have key (n : CommandName) := exec_commandInstr n p s
  exact ⟨key .sendPatch, key .requestPatch, key .sendCurrentPatch, key .requestCurrentPatch, key .parameterChange,
    key .storePatch, key .requestCurrentProgram, key .enableParameterChange, key .disableParameterChange⟩

/-- A catalog command sends its frame: its code is legal, so only the payload is left to check (R101, R102). -/
theorem exec_commandInstr_of_legal (n : CommandName) {p : List Byte} {s : State} (hs : withinMax s p.length)
    (hp : allLegal p = true) :
    exec (commandInstr n p) s = .next (finished s (outResponse (vendorFrameOf (commandCode n) p))) := by
  rw [exec_commandInstr, exec_buildCommand, compute_within hs, commandResponse_of_legal (legal_commandCode n) hp]

/-- Settles O34, command by command. -/
theorem catalogCommandsBuildTheirFrame : Obligations.CatalogCommandsBuildTheirFrame := by
  intro p s hs hp
  have key (n : CommandName) := exec_commandInstr_of_legal n hs ((allLegal_iff p).2 hp)
  exact ⟨key .sendPatch, key .requestPatch, key .sendCurrentPatch, key .requestCurrentPatch, key .parameterChange,
    key .storePatch, key .requestCurrentProgram, key .enableParameterChange, key .disableParameterChange⟩

end Sys2Proof.Machine
end

section
/-! PROOFS. PACK's bytes are transmission-legal and UNPACK takes them back to the packed sequence (R129). -/

namespace Sys2Proof.Machine

/-! ## One byte and one chunk -/

/-- Bit 7 of a byte, as a number. -/
theorem shiftRight_7_and_1_eq_div (u : Byte) : (u.toNat >>> 7) &&& 1 = u.toNat / 128 := by
  have := u.isLt
  rw [shiftRight_7_eq_div, Nat.and_one_is_mod]
  omega

/-- The low seven bits PACK sends of a byte. -/
theorem ofNat_and_7F_toNat (u : Byte) : (BitVec.ofNat 8 (u.toNat &&& 0x7F)).toNat = u.toNat % 128 := by
  rw [and_7F_eq_mod, BitVec.toNat_ofNat]
  omega

/-- The mask sum holds the first byte's bit 7 above those of the bytes after it (R129). -/
theorem packMask_cons (i : Nat) (u : Byte) (us : List Byte) :
    packMask i (u :: us) = packMask (i + 1) us + 2 ^ (6 - i) * (u.toNat / 128) := by
  rw [packMask, shiftRight_7_and_1_eq_div, Nat.shiftLeft_eq, Nat.add_comm, Nat.mul_comm]

/-- The mask sum has one bit for each byte of the chunk, from bit `6 - i` down. -/
theorem packMask_lt {i : Nat} {us : List Byte} (h : i + us.length ≤ 7) : packMask i us < 2 ^ (7 - i) := by
  induction us generalizing i with
  | nil => exact Nat.two_pow_pos _
  | cons u us ih =>
    rw [List.length_cons] at h
    have hrest : packMask (i + 1) us < 2 ^ (6 - i) := Nat.succ_sub_succ 6 i ▸ ih (i := i + 1) (by omega)
    have hbit : 2 ^ (6 - i) * (u.toNat / 128) ≤ 2 ^ (6 - i) * 1 :=
      Nat.mul_le_mul_left _ (by have := u.isLt; omega)
    rw [packMask_cons, show 7 - i = 6 - i + 1 by omega, Nat.pow_succ]
    omega

/-- A mask with the byte's bit 7 in bit `6 - i` restores the byte from its low seven bits. -/
theorem recovered_of_mask {m u : Byte} {i : Nat} (h : m.toNat / 2 ^ (6 - i) % 2 = u.toNat / 128) :
    recovered m i (BitVec.ofNat 8 (u.toNat &&& 0x7F)) = u := by
  have hlt := u.isLt
  rw [recovered, ofNat_and_7F_toNat, Nat.and_one_is_mod, Nat.shiftRight_eq_div_pow, h,
    or_shiftLeft_eq_add _ _ 7 (by omega), show u.toNat % 128 + u.toNat / 128 * 2 ^ 7 = u.toNat by omega,
    BitVec.ofNat_toNat, BitVec.setWidth_eq]

/-- Under a mask whose bits from `6 - i` down are the mask sum of `us`, the low seven bits of `us` give `us` back. -/
theorem recoverFrom_of_packMask {m : Byte} {i : Nat} {us : List Byte} (h : i + us.length ≤ 7)
    (hm : m.toNat % 2 ^ (7 - i) = packMask i us) :
    recoverFrom m i (us.map fun u => BitVec.ofNat 8 (u.toNat &&& 0x7F)) = us := by
  induction us generalizing i with
  | nil => rfl
  | cons u us ih =>
    rw [List.length_cons] at h
    have hi : 7 - (i + 1) = 6 - i := Nat.succ_sub_succ 6 i
    have hrest : packMask (i + 1) us < 2 ^ (6 - i) := hi ▸ packMask_lt (i := i + 1) (by omega)
    rw [packMask_cons, show 7 - i = 6 - i + 1 by omega, Nat.pow_succ] at hm
    obtain ⟨hbit, hlow⟩ := (Nat.div_mod_unique (Nat.two_pow_pos (6 - i))).2 ⟨hm.symm, hrest⟩
    rw [Nat.mod_mul_right_div_self] at hbit
    rw [Nat.mod_mul_right_mod] at hlow
    rw [List.map_cons, recoverFrom, recovered_of_mask hbit, ih (i := i + 1) (by omega) (hi ▸ hlow)]

/-- UNPACK of one packed chunk (R129). -/
theorem unpackGroup_packChunk {c : List Byte} (h : c.length ≤ 7) : unpackGroup (packChunk c) = c := by
  have hlt : packMask 0 c < 2 ^ 7 := packMask_lt (i := 0) (by omega)
  refine recoverFrom_of_packMask (i := 0) (by omega) ?_
  rw [BitVec.toNat_ofNat, Nat.mod_eq_of_lt (a := packMask 0 c) (by omega), Nat.mod_eq_of_lt hlt]

theorem allLegal_packChunk {c : List Byte} (h : c.length ≤ 7) : allLegal (packChunk c) = true := by
  rw [allLegal_iff]
  intro x hx
  obtain rfl | hx := List.mem_cons.1 hx
  · have hlt : packMask 0 c < 2 ^ 7 := packMask_lt (i := 0) (by omega)
    rw [BitVec.toNat_ofNat]
    omega
  · obtain ⟨u, -, rfl⟩ := List.mem_map.1 hx
    rw [ofNat_and_7F_toNat]
    omega

/-! ## Chunk by chunk -/

/-- Induction over a byte sequence in chunks of seven, the last one possibly shorter (R129). -/
theorem chunk_induction {P : List Byte → Prop} (nil : P [])
    (chunk : ∀ u, u ≠ [] → P (u.drop 7) → P u) (u : List Byte) : P u := by
  by_cases hu : u = []
  · exact hu ▸ nil
  · exact chunk u hu (chunk_induction nil chunk (u.drop 7))
termination_by u.length
decreasing_by
  have := List.length_pos_iff.2 hu
  rw [List.length_drop]
  omega

theorem allLegal_packBytes (u : List Byte) : allLegal (packBytes u) = true := by
  induction u using chunk_induction with
  | nil => rfl
  | chunk u hu ih =>
    have hchunk := allLegal_packChunk (c := u.take 7) (List.length_take_le 7 u)
    rw [packBytes_of_ne_nil u hu, allLegal, List.all_append]
    exact Bool.and_eq_true_iff.2 ⟨hchunk, ih⟩

/-- The packed stream's first group is the first chunk's, and the rest of it is the rest's. -/
theorem packBytes_take_drop {u : List Byte} (hu : u ≠ []) :
    (packBytes u).take 8 = packChunk (u.take 7) ∧ (packBytes u).drop 8 = packBytes (u.drop 7) := by
  rw [packBytes_of_ne_nil u hu]
  by_cases h : 7 ≤ u.length
  · have hlen : (packChunk (u.take 7)).length = 8 := by simp [packChunk_length, h]
    exact ⟨List.take_left' hlen, List.drop_left' hlen⟩
  · have hlen : (packChunk (u.take 7)).length ≤ 8 := by simp [packChunk_length]
    rw [List.drop_eq_nil_of_le (as := u) (by omega), packBytes_nil, List.append_nil]
    exact ⟨List.take_of_length_le hlen, List.drop_eq_nil_of_le hlen⟩

/-- UNPACK of PACK(u) is u (R129). -/
theorem unpackBytes_packBytes (u : List Byte) : unpackBytes (packBytes u) = u := by
  induction u using chunk_induction with
  | nil => rfl
  | chunk u hu ih =>
    obtain ⟨htake, hdrop⟩ := packBytes_take_drop hu
    have hne : packBytes u ≠ [] := by
      rw [packBytes_of_ne_nil u hu]
      exact List.cons_ne_nil _ _
    rw [unpackBytes_of_ne_nil _ hne, htake, hdrop, unpackGroup_packChunk (List.length_take_le 7 u), ih,
      List.take_append_drop]

end Sys2Proof.Machine
end

section
/-! PROOFS. Frames through CLASSIFY and the host's routing (R92): the last byte of a frame is dropped (R110), and what
is left of a patch-bearing frame is its packed body (R79, R81). -/

namespace Sys2Proof.Machine

theorem withinMax_of_le {s : State} {m n : Nat} (h : withinMax s n) (hle : m ≤ n) : withinMax s m :=
  fun k hk => hle.trans (h k hk)

/-! ## The last byte of a frame -/

/-- Six bytes or more are classified by the first five and the bytes between them and the last (R110, R112). -/
theorem classifyResponse_append_last {bytes : List Byte} (h : 5 ≤ bytes.length) (x y : Byte) :
    classifyResponse (bytes ++ [x]) = classifyResponse (bytes ++ [y]) := by
  match bytes, h with
  | d0 :: d1 :: d2 :: d3 :: d4 :: rest, _ =>
    simp only [List.cons_append, classifyResponse, vendorResult, universalResult, List.dropLast_concat]

/-- Settles O42: both sequences have the same length and the same response. -/
theorem classifyIgnoresLastByte : Obligations.ClassifyIgnoresLastByte := by
  intro bytes x y s h
  rw [exec_classify, exec_classify, classifyResponse_append_last h x y, List.length_append, List.length_append]
  rfl

/-- CLASSIFY of a vendor frame answers func and the payload without its last byte (R109, R110). -/
theorem exec_classify_vendorBytes {payload : List Byte} {s : State} (h : withinMax s (payload.length + 6))
    (func last : Byte) :
    exec (.classify (vendorBytes func (payload ++ [last]))) s
      = .next (finished s (vendorResult func (payload ++ [last]))) := by
  rw [exec_classify, compute_within (withinMax_of_le h (by simp [vendorBytes]))]
  rfl

/-! ## Routing -/

theorem routePatch_sendCurrentPatch (payload : List Byte) (last : Byte) :
    routePatch (vendorResult (commandCode .sendCurrentPatch) (payload ++ [last])) = some payload := by
  simp [routePatch, vendorResult]

theorem routePatch_sendPatch {payload : List Byte} {l : SendPatchLayout} (h : sendPatchLayout payload = some l)
    (last : Byte) : routePatch (vendorResult (commandCode .sendPatch) (payload ++ [last])) = some l.body := by
  simp [routePatch, vendorResult, commandCode, h]

/-- Settles O59, in three transactions: the packed bytes are legal, so the frame is built; CLASSIFY and the routing
take its payload back; UNPACK inverts PACK. -/
theorem patchSurvivesTheWire : Obligations.PatchSurvivesTheWire := by
  intro B s hs
  have hpacked : withinMax s (packBytes B).length := withinMax_of_le hs (Nat.le_add_right _ 6)
  refine ⟨_, _, _, packBytes B, exec_commandInstr_of_legal .sendCurrentPatch hpacked (allLegal_packBytes B), rfl,
    exec_classify_vendorBytes hs _ sysexEnd, routePatch_sendCurrentPatch (packBytes B) sysexEnd, ?_⟩
  rw [exec_unpack, compute_within hpacked, unpackBytes_packBytes]
  rfl

/-- The parts of a payload of ten bytes or more: header, body and trailer in this order (R79). -/
theorem sendPatchLayout_of_le {p : List Byte} (h : 10 ≤ p.length) :
    ∃ l, sendPatchLayout p = some l ∧ p = l.header ++ l.body ++ l.trailer ∧ l.header.length = 5 ∧
      l.trailer.length = 5 := by
  have hbody : p.take 5 ++ (p.drop 5).take (p.length - 10) = p.take (p.length - 5) := by
    rw [← List.take_add, show 5 + (p.length - 10) = p.length - 5 by omega]
  refine ⟨_, if_pos h, ?_, ?_, ?_⟩
  · rw [hbody, List.take_append_drop]
  · rw [List.length_take]
    omega
  · rw [List.length_drop]
    omega

/-- Settles O60: the frame's payload is p, and the routing takes the body of p's layout. -/
theorem sendPatchBodyIsRouted : Obligations.SendPatchBodyIsRouted := by
  intro p last s hp hs
  obtain ⟨l, hl, hparts, hheader, htrailer⟩ := sendPatchLayout_of_le hp
  have hexec : exec (.vendorFrame 0x08 (p ++ [last])) s = .next (finished s (vendorResult 0x08 (p ++ [last]))) :=
    exec_classify_vendorBytes (withinMax_of_le hs (Nat.add_comm ..).le) 0x08 last
  exact ⟨l, _, hl, hparts, hheader, htrailer, hexec, routePatch_sendPatch hl last⟩

end Sys2Proof.Machine
end

section
/-! PROOFS. BUILD_COMMAND's range check (R101, R102), CLASSIFY by its two header tests (R107 to R114), and the round
trip from a built frame back to its fields (R117). -/

namespace Sys2Proof.Machine

/-! ## Building -/

/-- One byte above 0x7F, func or payload, is out of range (R101). -/
theorem commandResponse_of_illegal {func : Byte} {payload : List Byte}
    (h : 0x7F < func.toNat ∨ ∃ x ∈ payload, 0x7F < x.toNat) :
    commandResponse func payload = raise .valueOutOfRange := by
  have illegal {x : Byte} (hx : 0x7F < x.toNat) : legal x = false := decide_eq_false (by omega)
  obtain hfunc | ⟨x, hmem, hx⟩ := h
  · simp [commandResponse, illegal hfunc]
  · exact commandResponse_of_not_legal hmem (illegal hx)

/-- BUILD_COMMAND completes with its frame where all bytes are legal (R102). -/
theorem exec_buildCommand_of_le {func : Byte} {payload : List Byte} {s : State} (hs : withinMax s payload.length)
    (hfunc : func.toNat ≤ 0x7F) (hpayload : ∀ x ∈ payload, x.toNat ≤ 0x7F) :
    exec (.buildCommand func payload) s = .next (finished s (outResponse (vendorFrameOf func payload))) := by
  rw [exec_buildCommand, compute_within hs,
    commandResponse_of_legal ((legal_iff func).2 hfunc) ((allLegal_iff payload).2 hpayload)]

/-- Settles O32, by the range check: the frame where every byte passes it, the status where one does not. -/
theorem buildCommandResult : Obligations.BuildCommandResult := by
  intro func payload s hs
  refine ⟨fun ⟨hfunc, hpayload⟩ => ?legal, fun h => ?illegal⟩
  case legal => exact ⟨_, rfl, by simp, exec_buildCommand_of_le hs hfunc hpayload⟩
  case illegal => rw [exec_buildCommand, compute_within hs, commandResponse_of_illegal h, raise_eq_statusOnly]

/-- BUILD_UNIVERSAL_INQUIRY completes with the fixed six bytes (R105). -/
theorem exec_buildUniversalInquiry_within {len : Nat} {s : State} (hs : withinMax s len) :
    exec (.buildUniversalInquiry len) s = .next (finished s (outResponse inquiryBytes)) :=
  compute_within hs _

/-- Settles O36: the common check is the only one of this operation. -/
theorem buildUniversalInquiryResult : Obligations.BuildUniversalInquiryResult :=
  fun _ _ => ⟨exec_buildUniversalInquiry_within, fun _ hm hlt => compute_exceeds hm hlt _⟩

/-! ## The header tests -/

/-- CLASSIFY's vendor test (R107). -/
def VendorTest (D : List Byte) : Prop :=
  5 ≤ D.length ∧ D.take 4 = [sysexStart, vendor1, vendor2, vendor3]

/-- CLASSIFY's universal test (R108). -/
def UniversalTest (D : List Byte) : Prop :=
  5 ≤ D.length ∧ D.take 3 = [sysexStart, universal1, universal2]

/-- The bytes that pass the vendor test are those of the VENDOR_FRAME row. -/
theorem vendorTest_iff (D : List Byte) : VendorTest D ↔ ∃ func rest, D = vendorBytes func rest := by
  constructor
  · rintro ⟨hlen, htake⟩
    match D, hlen with
    | d0 :: d1 :: d2 :: d3 :: func :: rest, _ => exact ⟨func, rest, congrArg (· ++ func :: rest) htake⟩
  · rintro ⟨func, rest, rfl⟩
    exact ⟨by simp [vendorBytes], rfl⟩

/-- The bytes that pass the universal test are those of the UNIVERSAL_FRAME row. -/
theorem universalTest_iff (D : List Byte) :
    UniversalTest D ↔ ∃ func subfunc rest, D = universalBytes func subfunc rest := by
  constructor
  · rintro ⟨hlen, htake⟩
    match D, hlen with
    | d0 :: d1 :: d2 :: func :: subfunc :: rest, _ =>
      exact ⟨func, subfunc, rest, congrArg (· ++ func :: subfunc :: rest) htake⟩
  · rintro ⟨func, subfunc, rest, rfl⟩
    exact ⟨by simp [universalBytes], rfl⟩

/-- No header passes both tests: they differ in the second byte. -/
theorem not_universalTest_vendorBytes (func : Byte) (rest : List Byte) : ¬ UniversalTest (vendorBytes func rest) := by
  simp [UniversalTest, vendorBytes]

/-- The vendor test on a sequence of three bytes or more (R107). -/
theorem vendorTest_cons_iff (d0 d1 d2 : Byte) (rest : List Byte) :
    VendorTest (d0 :: d1 :: d2 :: rest) ↔
      d0 = sysexStart ∧ d1 = vendor1 ∧ d2 = vendor2 ∧ rest.head? = some vendor3 ∧ 2 ≤ rest.length := by
  cases rest <;> simp [VendorTest, and_comm, and_assoc, and_left_comm]

/-- The universal test on a sequence of three bytes or more (R108). -/
theorem universalTest_cons_iff (d0 d1 d2 : Byte) (rest : List Byte) :
    UniversalTest (d0 :: d1 :: d2 :: rest) ↔
      d0 = sysexStart ∧ d1 = universal1 ∧ d2 = universal2 ∧ 2 ≤ rest.length := by
  simp [UniversalTest, and_comm, and_assoc, and_left_comm]

/-! ## CLASSIFY, result by result -/

theorem classifyResponse_of_short : ∀ {D : List Byte}, D.length < 3 → classifyResponse D = shortResult
  | [], _ | [_], _ | [_, _], _ => rfl
  | _ :: _ :: _ :: _, h => absurd h (by simp)

/-- Three bytes or more that fail both tests are a channel message (R112). -/
theorem classifyResponse_of_no_test {d0 d1 d2 : Byte} : ∀ {rest : List Byte},
    ¬ VendorTest (d0 :: d1 :: d2 :: rest) → ¬ UniversalTest (d0 :: d1 :: d2 :: rest) →
      classifyResponse (d0 :: d1 :: d2 :: rest) = channelResult d0 d1 d2
  | [], _, _ | [_], _, _ => rfl
  | d3 :: d4 :: rest, hvendor, huniversal => by
    rw [vendorTest_cons_iff] at hvendor
    rw [universalTest_cons_iff] at huniversal
    rw [classifyResponse, if_neg (by simpa using hvendor), if_neg (by simpa using huniversal)]

/-- Without a header the answer is NOMATCH, whatever the length (R112). -/
theorem classifyResponse_cls_of_no_test {D : List Byte} (hvendor : ¬ VendorTest D) (huniversal : ¬ UniversalTest D) :
    (classifyResponse D).cls = some .noMatch := by
  match D with
  | [] | [_] | [_, _] => rfl
  | d0 :: d1 :: d2 :: rest => rw [classifyResponse_of_no_test hvendor huniversal]; rfl

/-- Exactly one of three: which header test holds is what CLASSIFY answers (R107, R108, R112). -/
theorem classifyResponse_cls_cases (D : List Byte) :
    (VendorTest D ∧ ¬ UniversalTest D ∧ (classifyResponse D).cls = some .vendor) ∨
      (¬ VendorTest D ∧ UniversalTest D ∧ (classifyResponse D).cls = some .universal) ∨
      (¬ VendorTest D ∧ ¬ UniversalTest D ∧ (classifyResponse D).cls = some .noMatch) := by
  by_cases hvendor : VendorTest D
  · obtain ⟨func, rest, rfl⟩ := (vendorTest_iff D).1 hvendor
    exact .inl ⟨hvendor, not_universalTest_vendorBytes func rest, rfl⟩
  · by_cases huniversal : UniversalTest D
    · obtain ⟨func, subfunc, rest, rfl⟩ := (universalTest_iff D).1 huniversal
      exact .inr (.inl ⟨hvendor, huniversal, rfl⟩)
    · exact .inr (.inr ⟨hvendor, huniversal, classifyResponse_cls_of_no_test hvendor huniversal⟩)

/-- CLASSIFY has no failure of its own (R114). -/
theorem classifyResponse_status (D : List Byte) : (classifyResponse D).status = some .ok := by
  obtain ⟨_, _, h⟩ | ⟨_, _, _, h⟩ | ⟨_, _, _, h⟩ | h := classifyResponse_cases D <;> rw [h] <;> rfl

theorem exec_classify_within {D : List Byte} {s : State} (hs : withinMax s D.length) :
    exec (.classify D) s = .next (finished s (classifyResponse D)) :=
  compute_within hs _

/-- Settles O40: of the three classes and the three conditions on the header tests, one each holds. -/
theorem classifyTestsAreExact : Obligations.ClassifyTestsAreExact := by
  intro bytes s t hs h
  rw [exec_classify_within hs] at h
  cases h
  rw [finished_resp, and_or_left]
  change (_ ↔ VendorTest bytes) ∧ (_ ↔ UniversalTest bytes) ∧ (_ ↔ ¬ (VendorTest bytes ∨ UniversalTest bytes))
  obtain ⟨hv, hu, hcls⟩ | ⟨hv, hu, hcls⟩ | ⟨hv, hu, hcls⟩ := classifyResponse_cls_cases bytes <;> simp [hv, hu, hcls]

/-- Settles O41: CLASSIFY's status is OK, and in each of the three cases it gives a class. -/
theorem classifyNeverFails : Obligations.ClassifyNeverFails := by
  intro bytes s hs
  refine ⟨_, exec_classify_within hs, classifyResponse_status bytes, ?_⟩
  rw [finished_resp]
  obtain ⟨-, -, h⟩ | ⟨-, -, h⟩ | ⟨-, -, h⟩ := classifyResponse_cls_cases bytes <;> rw [h] <;> rfl

/-- The upper nibble of a status byte (R75). -/
theorem ofNat_shiftRight_4_toNat (d : Byte) : (BitVec.ofNat 4 (d.toNat >>> 4)).toNat = d.toNat / 16 := by
  rw [BitVec.toNat_ofNat, Nat.shiftRight_eq_div_pow]
  omega

/-- The lower nibble of a status byte (R75). -/
theorem ofNat_and_F_toNat (d : Byte) : (BitVec.ofNat 4 (d.toNat &&& 0xF)).toNat = d.toNat % 16 := by
  rw [BitVec.toNat_ofNat, Nat.and_two_pow_sub_one_eq_mod _ 4]
  omega

/-- Settles O39: without a header, three bytes or more are a channel message, whose type and channel are the nibbles
of its first byte, and fewer have the short result. -/
theorem classifyNoMatchResult : Obligations.ClassifyNoMatchResult := by
  intro s
  refine ⟨fun d0 d1 d2 rest hs hvendor huniversal => ?channel, fun bytes hshort hs => ?short⟩
  case channel =>
    have hlen : withinMax s (d0 :: d1 :: d2 :: rest).length := withinMax_of_le hs (Nat.add_comm rest.length 3).le
    have hexec : exec (.classify (d0 :: d1 :: d2 :: rest)) s = .next (finished s (channelResult d0 d1 d2)) := by
      rw [exec_classify_within hlen, classifyResponse_of_no_test (mt (vendorTest_cons_iff d0 d1 d2 rest).1 hvendor)
        (mt (universalTest_cons_iff d0 d1 d2 rest).1 huniversal)]
    exact ⟨_, _, ofNat_shiftRight_4_toNat d0, ofNat_and_F_toNat d0, hexec, hexec⟩
  case short =>
    rw [exec_classify_within hs, classifyResponse_of_short hshort]
    rfl

theorem vendorBytes_length (func : Byte) (rest : List Byte) : (vendorBytes func rest).length = 5 + rest.length :=
  Nat.add_comm rest.length 5

theorem universalBytes_length (func subfunc : Byte) (rest : List Byte) :
    (universalBytes func subfunc rest).length = 5 + rest.length :=
  Nat.add_comm rest.length 5

/-- Settles O37: the frame row is CLASSIFY of the frame's bytes, which drops the last byte of `rest`. -/
theorem classifyVendorResult : Obligations.ClassifyVendorResult := by
  intro func rest s hs
  have hexec : exec (.classify (vendorBytes func rest)) s = .next (finished s (vendorResult func rest)) :=
    exec_classify_within (withinMax_of_le hs (vendorBytes_length func rest).le)
  rw [← List.dropLast_eq_take]
  exact ⟨hexec, hexec⟩

/-- CLASSIFY of a universal frame answers both function bytes and the payload without its last byte (R111). -/
theorem exec_classify_universalBytes {rest : List Byte} {s : State} (hs : withinMax s (5 + rest.length))
    (func subfunc : Byte) :
    exec (.classify (universalBytes func subfunc rest)) s = .next (finished s (universalResult func subfunc rest)) :=
  exec_classify_within (withinMax_of_le hs (universalBytes_length func subfunc rest).le)

/-- CLASSIFY of the inquiry frame, the universal frame 06 01 with the end marker alone (R117 b). -/
theorem exec_classify_inquiryBytes {s : State} (hs : withinMax s 6) :
    exec (.classify inquiryBytes) s
      = .next (finished s (universalResult generalInfoFunc inquirySubfunc [sysexEnd])) :=
  exec_classify_universalBytes hs _ _

/-- Settles O38: the four rows are CLASSIFY of a universal frame's bytes. -/
theorem classifyUniversalResult : Obligations.ClassifyUniversalResult := by
  intro func subfunc rest s hs
  rw [← List.dropLast_eq_take]
  exact ⟨exec_classify_universalBytes hs func subfunc, exec_classify_universalBytes hs func subfunc,
    exec_classify_universalBytes hs generalInfoFunc subfunc, fun h6 => exec_classify_inquiryBytes h6⟩

/-! ## The round trip -/

/-- The last byte of a vendor frame is not in the answer (R110). -/
theorem vendorResult_append_last (func last : Byte) (payload : List Byte) :
    vendorResult func (payload ++ [last]) = { Response.empty with
      status := some .ok, cls := some .vendor, func := some func, subfuncValid := some false,
      out := some payload } := by
  rw [vendorResult, List.dropLast_concat]

/-- Settles O43: each build emits a frame that CLASSIFY recognises, the end marker being the byte it drops. -/
theorem classifyInvertsBuild : Obligations.ClassifyInvertsBuild := by
  intro s u
  refine ⟨fun func payload hfunc hpayload hs hu => ?command, fun hs hu => ?inquiry⟩
  case command =>
    have hbuild := exec_buildCommand_of_le (withinMax_of_le hs (Nat.le_add_right _ 6)) hfunc hpayload
    refine ⟨_, _, hbuild, rfl, ?_⟩
    rw [← vendorResult_append_last func sysexEnd]
    exact exec_classify_vendorBytes hu func sysexEnd
  case inquiry =>
    exact ⟨_, inquiryBytes, exec_buildUniversalInquiry_within hs, rfl, exec_classify_inquiryBytes hu⟩

end Sys2Proof.Machine
end

section
/-! PROOFS. UNPACK's output: its length (R120, R130), its bytes (R121), and the streaming form of it (R124). -/

namespace Sys2Proof.Machine

/-- UNPACK completes with OK and its output on every stream the common check lets through (R122, R123). -/
theorem exec_unpack_within {D : List Byte} {s : State} (hs : withinMax s D.length) :
    exec (.unpack D) s = .next (finished s (outResponse (unpackBytes D))) :=
  compute_within hs _

/-- An UNPACK that answers with an output answers with the unpacked stream. -/
theorem eq_unpackBytes_of_exec {D out : List Byte} {s t : State} (hexec : exec (.unpack D) s = .next t)
    (hout : t.resp.out = some out) : out = unpackBytes D := by
  rw [exec_unpack, compute_eq] at hexec
  cases hexec
  rw [finished_resp] at hout
  split at hout
  · cases hout
  · exact (Option.some.inj hout).symm

/-- Induction over a packed stream in groups of eight, the last one possibly shorter (R119). -/
theorem group_induction {P : List Byte → Prop} (nil : P [])
    (group : ∀ D, D ≠ [] → P (D.drop 8) → P D) (D : List Byte) : P D := by
  by_cases hD : D = []
  · exact hD ▸ nil
  · exact group D hD (group_induction nil group (D.drop 8))
termination_by D.length
decreasing_by
  have := List.length_pos_iff.2 hD
  rw [List.length_drop]
  omega

/-! ## The length -/

/-- Seven bytes for each full group, and one fewer than its bytes for a short one (R120). -/
theorem unpackBytes_length (D : List Byte) :
    (unpackBytes D).length = 7 * (D.length / 8) + (D.length % 8 - 1) := by
  induction D using group_induction with
  | nil => rfl
  | group D hD ih =>
    have hpos := List.length_pos_iff.2 hD
    rw [unpackBytes_of_ne_nil D hD, List.length_append, unpackGroup_length, List.length_take, ih, List.length_drop]
    omega

/-- Settles O47: each clause is arithmetic on the length of R120. -/
theorem packedPatchLengths : Obligations.PackedPatchLengths := by
  intro D out s t hexec hout
  have hlen : out.length = 7 * (D.length / 8) + (D.length % 8 - 1) :=
    eq_unpackBytes_of_exec hexec hout ▸ unpackBytes_length D
  omega

/-! ## The bytes -/

/-- The byte R121 gives needs no truncation to eight bits. -/
theorem recovered_toNat (m : Byte) (i : Nat) (d : Byte) :
    (recovered m i d).toNat = d.toNat ||| (((m.toNat >>> (6 - i)) &&& 1) <<< 7) := by
  have hbit : ((m.toNat >>> (6 - i)) &&& 1) <<< 7 < 2 ^ 8 := by
    rw [Nat.and_one_is_mod, Nat.shiftLeft_eq]
    omega
  exact BitVec.toNat_ofNat .. ▸ Nat.mod_eq_of_lt (Nat.or_lt_two_pow d.isLt hbit)

/-- Data byte i of the stream's first group, recovered (R121). -/
theorem unpackGroup_take_getElem? {D : List Byte} {i : Nat} {m d : Byte} (hi : i < 7) (hm : D[0]? = some m)
    (hd : D[1 + i]? = some d) : (unpackGroup (D.take 8))[i]? = some (recovered m i d) := by
  cases D with
  | nil => cases hm
  | cons m' ds =>
    obtain rfl : m' = m := Option.some.inj hm
    rw [Nat.add_comm, List.getElem?_cons_succ] at hd
    rw [List.take_succ_cons, unpackGroup, recoverFrom_getElem?, List.getElem?_take_of_lt hi, hd, Nat.zero_add]
    rfl

/-- Past a full first group, the output is that of the rest of the stream (R119). -/
theorem unpackBytes_getElem?_seven_add {D : List Byte} (h : 8 ≤ D.length) (j : Nat) :
    (unpackBytes D)[7 + j]? = (unpackBytes (D.drop 8))[j]? := by
  have hfirst : (unpackGroup (D.take 8)).length = 7 := by
    rw [unpackGroup_length, List.length_take, Nat.min_eq_left h]
  rw [unpackBytes_of_ne_nil D (List.ne_nil_of_length_pos (by omega)), List.getElem?_append_right (by omega), hfirst,
    Nat.add_sub_cancel_left]

/-- Data byte i of group k, recovered, is output byte 7k + i (R121). -/
theorem unpackBytes_getElem? {D : List Byte} {k i : Nat} {m d : Byte} (hi : i < 7) (hm : D[8 * k]? = some m)
    (hd : D[8 * k + 1 + i]? = some d) : (unpackBytes D)[7 * k + i]? = some (recovered m i d) := by
  obtain ⟨hlen, -⟩ := List.getElem?_eq_some_iff.1 hm
  induction k generalizing D with
  | zero =>
    rw [Nat.mul_zero, Nat.zero_add] at hd ⊢
    have hfirst := unpackGroup_take_getElem? hi hm hd
    obtain ⟨hlt, -⟩ := List.getElem?_eq_some_iff.1 hfirst
    rw [unpackBytes_of_ne_nil D (List.ne_nil_of_length_pos hlen), List.getElem?_append_left hlt, hfirst]
  | succ k ih =>
    have hm' : (D.drop 8)[8 * k]? = some m := by
      rw [List.getElem?_drop, ← hm, Nat.mul_succ, Nat.add_comm]
    have hd' : (D.drop 8)[8 * k + 1 + i]? = some d := by
      rw [List.getElem?_drop, ← hd, show 8 + (8 * k + 1 + i) = 8 * (k + 1) + 1 + i by omega]
    rw [show 7 * (k + 1) + i = 7 + (7 * k + i) by omega, unpackBytes_getElem?_seven_add (by omega)]
    exact ih hm' hd' (List.getElem?_eq_some_iff.1 hm').1

/-- Settles O44, by the length and the bytes of the unpacked stream. -/
theorem unpackResult : Obligations.UnpackResult := by
  intro D s hs
  refine ⟨unpackBytes D, exec_unpack_within hs, unpackBytes_length D, fun k i m d hi hm hd => ?_⟩
  rw [unpackBytes_getElem? hi hm hd, Option.map_some, recovered_toNat]

/-! ## The streaming form -/

/-- Past i data bytes of a group, the streaming form recovers the rest of the group under the latched mask and starts
the next group in phase 0 (R124). -/
theorem unpackStream_in_group (m : Byte) {i : Nat} (hi : i ≤ 7) (ds : List Byte) :
    unpackStream ((i + 1) % 8) m ds = recoverFrom m i (ds.take (7 - i)) ++ unpackStream 0 m (ds.drop (7 - i)) := by
  induction ds generalizing i with
  | nil => simp [unpackStream, recoverFrom]
  | cons d ds ih =>
    obtain rfl | hlt : i = 7 ∨ i < 7 := by omega
    · rfl
    · rw [show 7 - i = 7 - (i + 1) + 1 by omega, List.take_succ_cons, List.drop_succ_cons, recoverFrom,
        List.cons_append, ← ih (i := i + 1) hlt, Nat.mod_eq_of_lt (a := i + 1) (by omega), unpackStream,
        if_neg (Nat.succ_ne_zero i), recovered, Nat.succ_sub_succ 6 i]

/-- From phase 0 the streaming form latches the mask of each group, whatever it held before (R124). -/
theorem unpackStream_zero_eq_unpackBytes (m : Byte) (D : List Byte) : unpackStream 0 m D = unpackBytes D := by
  induction D using group_induction generalizing m with
  | nil => rfl
  | group D hD ih =>
    rw [unpackBytes_of_ne_nil D hD]
    cases D with
    | nil => cases hD rfl
    | cons mask ds =>
      rw [← ih mask]
      exact unpackStream_in_group mask (Nat.zero_le 7) ds

/-- Settles O45: both forms give the same bytes. -/
theorem streamingUnpackerAgrees : Obligations.StreamingUnpackerAgrees := by
  intro D m s hs
  rw [unpackStream_zero_eq_unpackBytes]
  exact exec_unpack_within hs

/-! ## The inverse of PACK -/

/-- Settles O46, by the chunks of PACK. -/
theorem unpackInvertsPack : Obligations.UnpackInvertsPack := by
  intro u s hs
  refine ⟨?_, (allLegal_iff (packBytes u)).1 (allLegal_packBytes u)⟩
  rw [exec_unpack_within hs, unpackBytes_packBytes]
  rfl

end Sys2Proof.Machine
end

section
/-! PROOFS. What COMBINE answers where both bytes are legal, and where one is not (R132, R133). -/

namespace Sys2Proof.Machine

/-- Two bytes of at most seven bits make fourteen bits: COMBINE's value is its formula in the naturals (R133). -/
theorem combineValue_toNat {low high : Byte} (hlow : low.toNat ≤ 0x7F) (hhigh : high.toNat ≤ 0x7F) :
    (combineValue low high).toNat = low.toNat ||| (high.toNat <<< 7) := by
  have hsum := or_shiftLeft_eq_add low.toNat high.toNat 7 (by omega)
  rw [combineValue, BitVec.toNat_ofNat, Nat.mod_eq_of_lt]
  omega

/-- COMBINE with an illegal byte is out of range (R132). -/
theorem combineResponse_of_illegal {low high : Byte} (h : 0x7F < low.toNat ∨ 0x7F < high.toNat) :
    combineResponse low high = raise .valueOutOfRange := by
  refine if_neg fun hlegal => ?_
  rw [Bool.and_eq_true, legal_iff, legal_iff] at hlegal
  omega

/-- Settles O48, by the range check: the Value14 where both bytes pass it, the status where one does not. -/
theorem combineResult : Obligations.CombineResult := by
  intro low high len s hs
  rw [exec_combine, compute_within hs]
  refine ⟨fun ⟨hlow, hhigh⟩ => ?legal, fun h => ?illegal⟩
  case legal =>
    refine ⟨combineValue low high, combineValue_toNat hlow hhigh, ?_⟩
    rw [combineResponse_of_legal ((legal_iff low).2 hlow) ((legal_iff high).2 hhigh)]
  case illegal => rw [combineResponse_of_illegal h, raise_eq_statusOnly]

end Sys2Proof.Machine
end

section
/-! PROOFS. Runs of stream bits byte by byte (R58): a run within one byte, and one that goes on into the next byte or
the next two. The parser's field formulas (R138 to R155) are of these three forms. -/

namespace Sys2Proof.Machine

theorem streamBit_in_byte (s : List Byte) (i : Nat) {k : Nat} (h : k < 8) :
    streamBit s (8 * i + k) = (s.getD i 0).toNat.testBit k := by
  rw [streamBit, show (8 * i + k) / 8 = i by omega, show (8 * i + k) % 8 = k by omega, List.getD_eq_getElem?_getD]
  cases s[i]? <;> simp

theorem testBit_streamField (s : List Byte) (lo w k : Nat) :
    (streamField s lo w).testBit k = (streamBit s (lo + k) && decide (k < w)) := by
  rw [streamFieldIsSliceOfInteger s lo w, Nat.testBit_and, Nat.testBit_shiftRight, Nat.testBit_two_pow_sub_one,
    streamBit_eq_testBit]

/-- A run is its lower part and, above it, the run that follows (R58). -/
theorem streamField_add (s : List Byte) (lo v w : Nat) :
    streamField s lo (v + w) = streamField s lo v ||| (streamField s (lo + v) w <<< v) := by
  refine Nat.eq_of_testBit_eq fun k => ?_
  rw [Nat.testBit_or, Nat.testBit_shiftLeft, testBit_streamField, testBit_streamField, testBit_streamField]
  by_cases hk : k < v
  · simp [hk, Nat.lt_add_right w hk]
  · obtain ⟨j, rfl⟩ := Nat.exists_eq_add_of_le (Nat.le_of_not_lt hk)
    simp [Nat.add_assoc]

/-- A run within byte i. -/
theorem streamField_one_byte (s : List Byte) (i j w : Nat) (h : j + w ≤ 8) :
    streamField s (8 * i + j) w = ((s.getD i 0).toNat >>> j) &&& (2 ^ w - 1) := by
  refine Nat.eq_of_testBit_eq fun k => ?_
  rw [testBit_streamField, Nat.testBit_and, Nat.testBit_shiftRight, Nat.testBit_two_pow_sub_one]
  by_cases hk : k < w
  · rw [Nat.add_assoc, streamBit_in_byte s i (by omega)]
  · simp [hk]

theorem shiftRight_lt_two_pow (x : Byte) {j : Nat} (h : j ≤ 8) : x.toNat >>> j < 2 ^ (8 - j) := by
  rw [Nat.shiftRight_eq_div_pow, Nat.div_lt_iff_lt_mul (Nat.two_pow_pos j), ← Nat.pow_add, Nat.sub_add_cancel h]
  exact x.isLt

/-- A run from bit j of byte i to the byte's end. -/
theorem streamField_to_byte_end (s : List Byte) (i : Nat) {j : Nat} (h : j ≤ 8) :
    streamField s (8 * i + j) (8 - j) = (s.getD i 0).toNat >>> j := by
  rw [streamField_one_byte s i j (8 - j) (by omega), Nat.and_two_pow_sub_one_of_lt_two_pow (shiftRight_lt_two_pow _ h)]

/-- A run from the start of byte i. -/
theorem streamField_from_byte_start (s : List Byte) (i : Nat) {w : Nat} (h : w ≤ 8) :
    streamField s (8 * i) w = (s.getD i 0).toNat &&& (2 ^ w - 1) :=
  streamField_one_byte s i 0 w (by omega)

/-- A run from bit j of byte i on, with v bits of byte i + 1. -/
theorem streamField_two_bytes (s : List Byte) (i j v : Nat) (hj : j ≤ 8) (hv : v ≤ 8) :
    streamField s (8 * i + j) (8 - j + v)
      = ((s.getD i 0).toNat >>> j) ||| (((s.getD (i + 1) 0).toNat &&& (2 ^ v - 1)) <<< (8 - j)) := by
  rw [streamField_add, streamField_to_byte_end s i hj, show 8 * i + j + (8 - j) = 8 * (i + 1) by omega,
    streamField_from_byte_start s (i + 1) hv]

/-- A run from bit j of byte i on, with the whole of byte i + 1 and v bits of byte i + 2. -/
theorem streamField_three_bytes (s : List Byte) (i j v : Nat) (hj : j ≤ 8) (hv : v ≤ 8) :
    streamField s (8 * i + j) (8 - j + 8 + v)
      = ((s.getD i 0).toNat >>> j) ||| ((s.getD (i + 1) 0).toNat <<< (8 - j)) |||
          (((s.getD (i + 2) 0).toNat &&& (2 ^ v - 1)) <<< (8 - j + 8)) := by
  have hwhole : (s.getD (i + 1) 0).toNat &&& (2 ^ 8 - 1) = (s.getD (i + 1) 0).toNat :=
    Nat.and_two_pow_sub_one_of_lt_two_pow (s.getD (i + 1) 0).isLt
  rw [streamField_add, streamField_two_bytes s i j 8 hj (by omega), hwhole,
    show 8 * i + j + (8 - j + 8) = 8 * (i + 2) by omega, streamField_from_byte_start s (i + 2) hv]

/-- A value that is a run of w bits loses no bit in a field of w bits. -/
theorem toNat_ofNat_of_run {s : List Byte} {lo w n : Nat} (h : streamField s lo w = n) :
    (BitVec.ofNat w n).toNat = n := by
  rw [BitVec.toNat_ofNat, Nat.mod_eq_of_lt (h ▸ streamField_lt s lo w)]

end Sys2Proof.Machine
end

section
/-! PROOFS. PARSE_PATCH as a function of the bytes it reads: its length checks (R137, R139), and the formulas of its
header fields (R138, R154 to R157). -/

namespace Sys2Proof.Machine

/-! ## The answer as a function of the bytes read -/

/-- The byte of a buffer at each index, where 0 stands for a byte past the end. -/
def bytesOf (D : List Byte) (i : Nat) : Byte :=
  D.getD i 0

/-- `effect_count` of a buffer whose bytes are b (R138). -/
def patchCount (b : Nat → Byte) : Nat :=
  (effectCountOf (b 109)).toNat

/-- Result slot e of a buffer whose bytes are b (R140). -/
def patchSlot (b : Nat → Byte) (e : Nat) : Option Slot :=
  if e < patchCount b then some (parseSlot (fun k => b (18 * e + k)) (dspOf (b 108) e)) else none

/-- The Patch of a buffer whose bytes are b, for any b (R158). -/
def patchOf (b : Nat → Byte) : Response :=
  { Response.empty with
    status := some .ok
    effectCount := some (effectCountOf (b 109))
    currentEffectIndex := some (ceiOf (b 108) (b 109))
    tempo := some (tempoOf (b 109) (b 110))
    name := some (trimName ((List.range 10).map fun j => b (111 + j)))
    slots := some (Vector.ofFn fun e : Fin 7 => patchSlot b e) }

theorem bytesOf_of_getElem? {D : List Byte} {i : Nat} {x : Byte} (h : D[i]? = some x) : bytesOf D i = x := by
  simp [bytesOf, h]

theorem memRead_eq_bytesOf (D : List Byte) (i : Nat) (h : i < D.length) : memRead D i h = bytesOf D i :=
  memRead_eq_getD D i h 0

theorem take_drop_eq_map_bytesOf {D : List Byte} {i n : Nat} (h : i + n ≤ D.length) :
    (D.drop i).take n = (List.range n).map fun j => bytesOf D (i + j) := by
  refine List.ext_getElem (by simp; omega) fun j hj _ => ?_
  simp only [List.length_take, List.length_drop] at hj
  rw [List.getElem_take, List.getElem_drop, List.getElem_map, List.getElem_range, bytesOf,
    List.getD_eq_getElem D 0 (by omega)]

theorem slotEntry_eq_patchSlot (D : List Byte) (h : 18 * patchCount (bytesOf D) ≤ D.length) (e : Nat) :
    slotEntry D (bytesOf D 108) (patchCount (bytesOf D)) h e = patchSlot (bytesOf D) e := by
  unfold slotEntry patchSlot
  split
  · next he =>
    have hslot : slotAt D e (by omega) = fun k : Fin 18 => bytesOf D (18 * e + k) :=
      funext fun k => slotAt_eq_getD D e _ k 0
    rw [hslot]
  · rfl

/-- Past both length checks the parser's bounded reads are reads of `bytesOf`. -/
theorem parsedPatch_eq_patchOf (D : List Byte) (h1 : 121 ≤ D.length)
    (h2 : 18 * (effectCountOf (memRead D 109 (by omega))).toNat ≤ D.length) :
    parsedPatch D h1 h2 = patchOf (bytesOf D) := by
  have hslots (e : Nat) : slotEntry D (memRead D 108 (by omega)) (effectCountOf (memRead D 109 (by omega))).toNat h2 e
      = patchSlot (bytesOf D) e := by
    simp only [memRead_eq_bytesOf]
    exact slotEntry_eq_patchSlot D _ e
  unfold parsedPatch patchOf
  simp only [hslots]
  simp only [memRead_eq_bytesOf, take_drop_eq_map_bytesOf (i := 111) (n := 10) h1]
  rfl

/-- The two length checks as one condition (R137, R139). -/
theorem patchResponse_eq (D : List Byte) :
    patchResponse D = if 121 ≤ D.length ∧ 18 * patchCount (bytesOf D) ≤ D.length then patchOf (bytesOf D)
      else raise .insufficientData := by
  unfold patchResponse
  by_cases h1 : 121 ≤ D.length
  · simp only [h1, if_true, true_and, patchCount, parsedPatch_eq_patchOf, memRead_eq_bytesOf, dite_eq_ite]
  · simp [h1]

theorem slotOf_patchOf (b : Nat → Byte) (e : Fin 7) : slotOf (patchOf b) e = patchSlot b e := by
  simp [slotOf, patchOf]

/-! ## The length checks -/

theorem effectCountOf_toNat (x : Byte) : (effectCountOf x).toNat = (x.toNat >>> 2) &&& 7 :=
  toNat_ofNat_of_run (streamField_one_byte [x] 0 2 3 (by decide))

theorem patchCount_bytesOf {D : List Byte} {b109 : Byte} (h : D[109]? = some b109) :
    patchCount (bytesOf D) = (b109.toNat >>> 2) &&& 7 := by
  rw [patchCount, bytesOf_of_getElem? h, effectCountOf_toNat]

/-- PARSE_PATCH of a buffer that passes both length checks (R158). -/
theorem exec_parsePatch_of_le {D : List Byte} {s : State} (hs : withinMax s D.length) (h1 : 121 ≤ D.length)
    (h2 : 18 * patchCount (bytesOf D) ≤ D.length) :
    exec (.parsePatch D) s = .next (finished s (patchOf (bytesOf D))) := by
  rw [exec_parsePatch, compute_within hs, patchResponse_eq, if_pos ⟨h1, h2⟩]

/-- PARSE_PATCH of a buffer that fails one of the length checks (R137, R139). -/
theorem exec_parsePatch_of_lt {D : List Byte} {s : State} (hs : withinMax s D.length)
    (h : D.length < 121 ∨ D.length < 18 * patchCount (bytesOf D)) :
    exec (.parsePatch D) s = .next (finished s (statusOnly .insufficientData)) := by
  rw [exec_parsePatch, compute_within hs, patchResponse_eq, if_neg (by omega), raise_eq_statusOnly]

/-- Settles O50: one clause for each check that fails, and one where both pass. -/
theorem parsePatchLengthChecks : Obligations.ParsePatchLengthChecks := by
  intro D s hs
  refine ⟨fun h => ?short, fun b109 hb h => ?slots, fun b109 hb h1 h2 => ?ok⟩
  case short => exact exec_parsePatch_of_lt hs (.inl h)
  case slots => exact exec_parsePatch_of_lt hs (.inr (patchCount_bytesOf hb ▸ h))
  case ok => exact ⟨_, exec_parsePatch_of_le hs h1 (patchCount_bytesOf hb ▸ h2), rfl⟩

/-- A PARSE_PATCH that completes has passed both length checks and answers the Patch, or has failed. -/
theorem parsePatch_cases {D : List Byte} {s t : State} (h : exec (.parsePatch D) s = .next t) :
    (121 ≤ D.length ∧ 18 * patchCount (bytesOf D) ≤ D.length ∧ t.resp = patchOf (bytesOf D)) ∨ Failure t.resp := by
  rw [exec_parsePatch, compute_eq, patchResponse_eq] at h
  cases h
  rw [finished_resp]
  split
  · exact .inr (failure_raise (by decide))
  · split
    · next hlen => exact .inl ⟨hlen.1, hlen.2, rfl⟩
    · exact .inr (failure_raise (by decide))

theorem parsePatch_of_ok {D : List Byte} {s t : State} (h : exec (.parsePatch D) s = .next t)
    (hok : t.resp.status = some .ok) :
    121 ≤ D.length ∧ 18 * patchCount (bytesOf D) ≤ D.length ∧ t.resp = patchOf (bytesOf D) := by
  obtain hpatch | ⟨st, hne, hfail⟩ := parsePatch_cases h
  · exact hpatch
  · rw [hfail] at hok
    exact absurd (Option.some.inj hok) hne

/-- Only a response that is OK has an `effect_count`. -/
theorem ok_of_effectCount {D : List Byte} {s t : State} {count : BitVec 3} (h : exec (.parsePatch D) s = .next t)
    (hcount : t.resp.effectCount = some count) : t.resp.status = some .ok := by
  obtain ⟨-, -, hresp⟩ | ⟨st, -, hfail⟩ := parsePatch_cases h
  · rw [hresp]
    rfl
  · rw [hfail] at hcount
    cases hcount

theorem patchCount_of_effectCount {b : Nat → Byte} {count : BitVec 3} (h : (patchOf b).effectCount = some count) :
    patchCount b = count.toNat :=
  congrArg BitVec.toNat (Option.some.inj h)

/-! ## The header -/

theorem tempoOf_toNat (x y : Byte) : (tempoOf x y).toNat = (x.toNat >>> 5) ||| ((y.toNat &&& 31) <<< 3) :=
  toNat_ofNat_of_run (streamField_two_bytes [x, y] 0 5 5 (by decide) (by decide))

/-- The selector of R154 is at most 3. -/
theorem selector_lt_four (x y : Byte) : (x.toNat >>> 6) ||| (y.toNat &&& 1) < 4 :=
  Nat.or_lt_two_pow (n := 2) (shiftRight_lt_two_pow x (by decide)) (Nat.and_lt_two_pow _ (by decide))

theorem ceiOf_toNat (x y : Byte) : (ceiOf x y).toNat = 5 - ((x.toNat >>> 6) ||| (y.toNat &&& 1)) := by
  rw [ceiOf, BitVec.toNat_ofNat, Nat.mod_eq_of_lt (by omega)]

/-- Settles O51, by the formula of each header field; the index is between 2 and 5 as its selector is at most 3. -/
theorem parsePatchHeaderFields : Obligations.ParsePatchHeaderFields := by
  intro D s b108 b109 b110 hs h108 h109 h110 h1 h2
  have hexec := exec_parsePatch_of_le hs h1 (patchCount_bytesOf h109 ▸ h2)
  obtain rfl := bytesOf_of_getElem? h108
  obtain rfl := bytesOf_of_getElem? h109
  obtain rfl := bytesOf_of_getElem? h110
  have hindex := ceiOf_toNat (bytesOf D 108) (bytesOf D 109)
  have hselector := selector_lt_four (bytesOf D 108) (bytesOf D 109)
  exact ⟨_, _, _, _, hexec, rfl, rfl, effectCountOf_toNat _, rfl, hindex, by omega, by omega, rfl, tempoOf_toNat _ _⟩

theorem inTrimSet_iff (x : Byte) :
    inTrimSet x = true ↔ x ∈ ([0x00, 0x09, 0x0A, 0x0B, 0x0C, 0x0D, 0x20] : List Byte) := by
  simp [inTrimSet, or_assoc]

/-- Settles O53: the trim is `rdropWhile`, and what it drops is `rtakeWhile`. -/
theorem parsePatchName : Obligations.ParsePatchName := by
  intro D s t h hok
  obtain ⟨h1, -, hresp⟩ := parsePatch_of_ok h hok
  have hname : t.resp.name = some (((D.drop 111).take 10).rdropWhile inTrimSet) := by
    rw [hresp, take_drop_eq_map_bytesOf h1]
    rfl
  have hparts := List.rdropWhile_append_rtakeWhile (p := inTrimSet) (l := (D.drop 111).take 10)
  refine ⟨_, _, hname, hparts.symm, ?length, fun x hx => ?dropped, fun x hx => ?last⟩
  case length =>
    rw [← List.length_append, hparts, List.length_take, List.length_drop]
    omega
  case dropped => exact (inTrimSet_iff x).1 (List.mem_rtakeWhile_imp hx)
  case last =>
    obtain ⟨hne, rfl⟩ := List.mem_getLast?_eq_getLast hx
    exact mt (inTrimSet_iff _).2 (List.rdropWhile_last_not _ _ hne)

end Sys2Proof.Machine
end

section
/-! PROOFS. The slots of a Patch: the formulas of their fields (R140 to R153), the runs of stream bits they are (R159),
and what slot 6 shares with the header (R161). -/

namespace Sys2Proof.Machine

/-! ## One slot -/

theorem and_one_bne_zero (n i : Nat) : (((n >>> i) &&& 1) != 0) = n.testBit i := by
  rw [Nat.testBit, Nat.and_comm]

theorem testBit_toNat (n i : Nat) : (n.testBit i).toNat = (n >>> i) &&& 1 := by
  rw [Nat.toNat_testBit, Nat.and_one_is_mod, Nat.shiftRight_eq_div_pow]

theorem dspOf_eq_testBit (x : Byte) (e : Nat) : dspOf x e = x.toNat.testBit e :=
  and_one_bne_zero x.toNat e

theorem parseSlot_enabled (slot : Fin 18 → Byte) (dsp : Bool) :
    (parseSlot slot dsp).enabled = (slot 0).toNat.testBit 0 :=
  and_one_bne_zero (slot 0).toNat 0

theorem nibblePair_toNat (x y : Byte) : (nibblePair x y).toNat = (x.toNat >>> 4) ||| ((y.toNat &&& 15) <<< 4) :=
  toNat_ofNat_of_run (streamField_two_bytes [x, y] 0 4 4 (by decide) (by decide))

/-- The fields of a slot are the formulas of R141 to R152 of bytes with the values d, with no bit lost. -/
structure SlotFormulas (d : Nat → Nat) (slot : Slot) : Prop where
  enabled : slot.enabled.toNat = d 0 &&& 1
  effectType : slot.effectType.toNat = (d 0 >>> 5) ||| ((d 1 &&& 15) <<< 3)
  category : slot.category.toNat = (d 3 >>> 1) &&& 15
  param0 : slot.param0.toNat = (d 3 >>> 5) ||| (d 4 <<< 3) ||| ((d 5 &&& 3) <<< 11)
  param1 : slot.param1.toNat = (d 5 >>> 2) ||| ((d 6 &&& 127) <<< 6)
  param2 : slot.param2.toNat = (d 6 >>> 7) ||| (d 7 <<< 1) ||| ((d 8 &&& 15) <<< 9)
  param3 : slot.param3.toNat = (d 8 >>> 4) ||| ((d 9 &&& 15) <<< 4)
  param4 : slot.param4.toNat = (d 9 >>> 4) ||| ((d 10 &&& 15) <<< 4)
  param5 : slot.param5.toNat = (d 10 >>> 4) ||| ((d 11 &&& 15) <<< 4)
  param6 : slot.param6.toNat = (d 11 >>> 4) ||| ((d 12 &&& 15) <<< 4)
  param7 : slot.param7.toNat = (d 12 >>> 4) ||| ((d 13 &&& 15) <<< 4)
  param8 : slot.param8.toNat = d 16

/-- No field is narrowed below its formula, which is a bit, a run of at most three bytes, or a whole byte. -/
theorem slotFormulas_parseSlot (b : Nat → Byte) (dsp : Bool) :
    SlotFormulas (fun k => (b k).toNat) (parseSlot (fun k => b k) dsp) where
  enabled := by rw [parseSlot_enabled, testBit_toNat]; rfl
  effectType := toNat_ofNat_of_run (streamField_two_bytes [b 0, b 1] 0 5 4 (by decide) (by decide))
  category := toNat_ofNat_of_run (streamField_one_byte [b 3] 0 1 4 (by decide))
  param0 := toNat_ofNat_of_run (streamField_three_bytes [b 3, b 4, b 5] 0 5 2 (by decide) (by decide))
  param1 := toNat_ofNat_of_run (streamField_two_bytes [b 5, b 6] 0 2 7 (by decide) (by decide))
  param2 := toNat_ofNat_of_run (streamField_three_bytes [b 6, b 7, b 8] 0 7 4 (by decide) (by decide))
  param3 := nibblePair_toNat (b 8) (b 9)
  param4 := nibblePair_toNat (b 9) (b 10)
  param5 := nibblePair_toNat (b 10) (b 11)
  param6 := nibblePair_toNat (b 11) (b 12)
  param7 := nibblePair_toNat (b 12) (b 13)
  param8 := rfl

/-! ## The slots of a Patch -/

theorem patchSlot_isSome (b : Nat → Byte) (e : Nat) : (patchSlot b e).isSome = true ↔ e < patchCount b := by
  unfold patchSlot
  split <;> simp [*]

theorem eq_parseSlot_of_patchSlot {b : Nat → Byte} {e : Nat} {slot : Slot} (h : patchSlot b e = some slot) :
    e < patchCount b ∧ slot = parseSlot (fun k => b (18 * e + k)) (dspOf (b 108) e) := by
  unfold patchSlot at h
  split at h
  · next he => exact ⟨he, (Option.some.inj h).symm⟩
  · cases h

theorem dspFull_toNat {b : Nat → Byte} {e : Nat} {slot : Slot} (h : patchSlot b e = some slot) :
    slot.dspFull.toNat = ((b 108).toNat >>> e) &&& 1 := by
  obtain ⟨-, rfl⟩ := eq_parseSlot_of_patchSlot h
  exact dspOf_eq_testBit (b 108) e ▸ testBit_toNat _ e

/-- The formulas of a valid slot, in a sequence d of its own 18 bytes. -/
theorem slotFormulas_of_patchSlot {b d : Nat → Byte} {e : Nat} {slot : Slot} (h : patchSlot b e = some slot)
    (hd : ∀ k < 18, b (18 * e + k) = d k) : SlotFormulas (fun k => (d k).toNat) slot := by
  obtain ⟨-, rfl⟩ := eq_parseSlot_of_patchSlot h
  rw [show (fun k : Fin 18 => b (18 * e + k)) = fun k : Fin 18 => d k from funext fun k => hd k k.isLt]
  exact slotFormulas_parseSlot d _

/-- Settles O52, by the formulas of one slot; the second length check puts its 18 bytes in the buffer. -/
theorem parsePatchSlotFields : Obligations.ParsePatchSlotFields := by
  intro D s t count e h hcount b d
  obtain ⟨-, h2, hresp⟩ := parsePatch_of_ok h (ok_of_effectCount h hcount)
  rw [hresp] at hcount ⊢
  rw [slotOf_patchOf, ← patchCount_of_effectCount hcount]
  refine ⟨patchSlot_isSome _ _, fun slot hslot => ?_⟩
  obtain ⟨he, -⟩ := eq_parseSlot_of_patchSlot hslot
  have f := slotFormulas_of_patchSlot (d := fun k => bytesOf D (18 * e + k)) hslot fun _ _ => rfl
  exact ⟨by omega, f.enabled, f.effectType, f.category, f.param0, f.param1, f.param2, f.param3, f.param4, f.param5,
    f.param6, f.param7, f.param8, dspFull_toNat hslot⟩

/-! ## Runs of stream bits -/

/-- The 18 bytes of slot e as a sequence of their own. -/
theorem getD_slot_sequence (D : List Byte) (e : Nat) {k : Nat} (hk : k < 18) :
    ((D.drop (18 * e)).take 18).getD k 0 = bytesOf D (18 * e + k) := by
  simp [bytesOf, List.getElem?_take_of_lt hk]

/-- Each field of a valid slot is the run R159 gives, in the sequence q of its own 18 bytes. -/
theorem patchSlot_runs {D q : List Byte} {e : Nat} {slot : Slot} (h : patchSlot (bytesOf D) e = some slot) (he : e < 8)
    (hq : (D.drop (18 * e)).take 18 = q) :
    slot.enabled.toNat = streamField q 0 1 ∧
    slot.effectType.toNat = streamField q 5 7 ∧
    slot.category.toNat = streamField q 25 4 ∧
    slot.param0.toNat = streamField q 29 13 ∧
    slot.param1.toNat = streamField q 42 13 ∧
    slot.param2.toNat = streamField q 55 13 ∧
    slot.param3.toNat = streamField q 68 8 ∧
    slot.param4.toNat = streamField q 76 8 ∧
    slot.param5.toNat = streamField q 84 8 ∧
    slot.param6.toNat = streamField q 92 8 ∧
    slot.param7.toNat = streamField q 100 8 ∧
    slot.param8.toNat = streamField q 128 8 ∧
    slot.dspFull.toNat = streamField D (864 + e) 1 := by
  have f : SlotFormulas (fun k => (q.getD k 0).toNat) slot :=
    slotFormulas_of_patchSlot h fun k hk => hq ▸ (getD_slot_sequence D e hk).symm
  have nibbles (i : Nat) := streamField_two_bytes q i 4 4 (by decide) (by decide)
  exact ⟨f.enabled.trans (streamField_one_byte q 0 0 1 (by decide)).symm,
    f.effectType.trans (streamField_two_bytes q 0 5 4 (by decide) (by decide)).symm,
    f.category.trans (streamField_one_byte q 3 1 4 (by decide)).symm,
    f.param0.trans (streamField_three_bytes q 3 5 2 (by decide) (by decide)).symm,
    f.param1.trans (streamField_two_bytes q 5 2 7 (by decide) (by decide)).symm,
    f.param2.trans (streamField_three_bytes q 6 7 4 (by decide) (by decide)).symm,
    f.param3.trans (nibbles 8).symm, f.param4.trans (nibbles 9).symm, f.param5.trans (nibbles 10).symm,
    f.param6.trans (nibbles 11).symm, f.param7.trans (nibbles 12).symm,
    f.param8.trans (streamField_to_byte_end q 16 (j := 0) (by decide)).symm,
    (dspFull_toNat h).trans (streamField_one_byte D 108 e 1 (by omega)).symm⟩

/-- Settles O54: the slots field by field in their own 18 bytes, the header in the buffer. -/
theorem patchFieldsAreStreamFields : Obligations.PatchFieldsAreStreamFields := by
  intro D s t h hok
  obtain ⟨-, -, hresp⟩ := parsePatch_of_ok h hok
  rw [hresp]
  refine ⟨congrArg some ?count, congrArg some ?tempo, congrArg some ?index, fun e slot hslot => ?slot⟩
  case count => exact (effectCountOf_toNat _).trans (streamField_one_byte D 109 2 3 (by decide)).symm
  case tempo => exact (tempoOf_toNat _ _).trans (streamField_two_bytes D 109 5 5 (by decide) (by decide)).symm
  case index =>
    rw [ceiOf_toNat, streamField_to_byte_end D 108 (j := 6) (by decide),
      streamField_from_byte_start D 109 (w := 1) (by decide)]
    rfl
  case slot =>
    rw [slotOf_patchOf] at hslot
    exact patchSlot_runs hslot (by omega) rfl

/-! ## Slot 6 and the header -/

theorem getElem?_eq_bytesOf {D : List Byte} {i : Nat} (h : i < D.length) : D[i]? = some (bytesOf D i) := by
  simp [bytesOf, h]

/-- The low three bits of `type` are the high three bits of the slot's first byte (R142). -/
theorem parseSlot_effectType_mod_eight (b : Nat → Byte) (dsp : Bool) :
    (parseSlot (fun k => b k) dsp).effectType.toNat % 8 = (b 0).toNat / 32 := by
  have htype := (slotFormulas_parseSlot b dsp).effectType
  have hlow := shiftRight_lt_two_pow (b 0) (j := 5) (by decide)
  rw [or_shiftLeft_eq_add _ _ 3 hlow, Nat.shiftRight_eq_div_pow] at htype
  omega

/-- Settles O58: the first byte of slot 6 is buffer byte 108, whose bits 0 and 6 are `dsp_full` bits. -/
theorem slotSixOverlapsHeader : Obligations.SlotSixOverlapsHeader := by
  intro D s t h hcount
  obtain ⟨h1, h2, hresp⟩ := parsePatch_of_ok h (ok_of_effectCount h hcount)
  rw [hresp] at hcount ⊢
  have hc : patchCount (bytesOf D) = 7 := patchCount_of_effectCount hcount
  have hvalid (e : Fin 7) : slotOf (patchOf (bytesOf D)) e
      = some (parseSlot (fun k => bytesOf D (18 * e + k)) (dspOf (bytesOf D 108) e)) := by
    rw [slotOf_patchOf, patchSlot, if_pos (by omega)]
  exact ⟨bytesOf D 108, _, _, getElem?_eq_bytesOf (by omega), hvalid 0, hvalid 6, parseSlot_enabled _ _,
    dspOf_eq_testBit _ 0, dspOf_eq_testBit _ 6, parseSlot_effectType_mod_eight (fun k => bytesOf D (108 + k)) _⟩

end Sys2Proof.Machine
end

section
/-! PROOFS. Which bits of a buffer PARSE_PATCH reads: clearing the others changes no field (R160), and none of the bytes
past the required length has a bit that is read (R162). -/

namespace Sys2Proof.Machine

/-! ## Fields of a masked byte -/

/-- A masked byte keeps the bits from j on that the mask covers. -/
theorem masked_shiftRight_and (x : Byte) {m : Byte} {j k : Nat} (h : (m.toNat >>> j) &&& k = k) :
    ((x &&& m).toNat >>> j) &&& k = (x.toNat >>> j) &&& k := by
  rw [BitVec.toNat_and, Nat.shiftRight_and_distrib, Nat.and_assoc, h]

/-- A masked byte keeps all its bits from j on if the mask covers them. -/
theorem masked_shiftRight (x : Byte) {m : Byte} {j : Nat} (hj : j ≤ 8)
    (h : (m.toNat >>> j) &&& (2 ^ (8 - j) - 1) = 2 ^ (8 - j) - 1) : (x &&& m).toNat >>> j = x.toNat >>> j := by
  have hfield := masked_shiftRight_and x h
  rwa [Nat.and_two_pow_sub_one_of_lt_two_pow (shiftRight_lt_two_pow _ hj),
    Nat.and_two_pow_sub_one_of_lt_two_pow (shiftRight_lt_two_pow _ hj)] at hfield

theorem masked_and (x : Byte) {m : Byte} {k : Nat} (h : m.toNat &&& k = k) : (x &&& m).toNat &&& k = x.toNat &&& k :=
  masked_shiftRight_and x (j := 0) h

theorem masked_full (x : Byte) {m : Byte} (h : m = 0xFF) : x &&& m = x :=
  h ▸ BitVec.and_allOnes

theorem masked_submask (x : Byte) {a m : Byte} (h : m &&& a = a) : x &&& m &&& a = x &&& a := by
  rw [BitVec.and_assoc, h]

theorem or_and_self_left (a c : Byte) : (a ||| c) &&& a = a := by
  rw [BitVec.and_comm]
  ext i hi
  simpa using Or.inl

/-- The slot fields read no bit outside `slotMask` (R160). -/
theorem parseSlot_slotMask (slot : Fin 18 → Byte) (dsp : Bool) :
    parseSlot (fun k => slot k &&& slotMask k) dsp = parseSlot slot dsp := by
  simp (disch := decide) only [parseSlot, nibblePair, masked_full, masked_and, masked_shiftRight]

/-- So clearing bits outside `slotMask` changes no slot field. -/
theorem parseSlot_mask (slot mask : Fin 18 → Byte) (dsp : Bool) (h : ∀ k, mask k &&& slotMask k = slotMask k) :
    parseSlot (fun k => slot k &&& mask k) dsp = parseSlot slot dsp := by
  rw [← parseSlot_slotMask, ← parseSlot_slotMask slot]
  simp only [masked_submask, h]

/-! ## The Patch of a masked buffer -/

/-- The bytes b with every bit cleared that PARSE_PATCH does not read at effect count n. -/
def maskUnused (n : Nat) (b : Nat → Byte) (i : Nat) : Byte :=
  b i &&& usedMask n i

theorem patchCount_lt_eight (b : Nat → Byte) : patchCount b < 8 :=
  (effectCountOf (b 109)).isLt

theorem effectCountOf_mask (x : Byte) {n : Nat} (hn : n < 8) :
    effectCountOf (x &&& usedMask n 109) = effectCountOf x := by
  rw [effectCountOf, effectCountOf, masked_shiftRight_and x]
  revert n
  decide

theorem ceiOf_mask (x y : Byte) {n : Nat} (hn : n < 8) :
    ceiOf (x &&& usedMask n 108) (y &&& usedMask n 109) = ceiOf x y := by
  rw [ceiOf, ceiOf, masked_shiftRight x (by decide), masked_and y] <;> revert n <;> decide

theorem tempoOf_mask (x y : Byte) {n : Nat} (hn : n < 8) :
    tempoOf (x &&& usedMask n 109) (y &&& usedMask n 110) = tempoOf x y := by
  rw [tempoOf, tempoOf, masked_shiftRight x (by decide), masked_and y] <;> revert n <;> decide

theorem dspOf_mask (x : Byte) {n e : Nat} (hn : n < 8) (he : e < n) : dspOf (x &&& usedMask n 108) e = dspOf x e := by
  have hbit : ∀ n < 8, ∀ e < n, ((usedMask n 108).toNat >>> e) &&& 1 = 1 := by decide
  rw [dspOf, dspOf, masked_shiftRight_and x (hbit n hn e he)]

/-- All bits of the name's bytes are used. -/
theorem usedMask_name (n : Nat) {j : Nat} (hj : j < 10) : usedMask n (111 + j) = 0xFF := by
  have hheader : headerMask n (111 + j) = 0xFF := by
    simp [headerMask, show 111 + j ≠ 108 by omega, show 111 + j ≠ 109 by omega, show 111 + j ≠ 110 by omega,
      show 111 + j ≤ 120 by omega]
  rw [usedMask, hheader]
  exact BitVec.or_allOnes

/-- The used bits of a valid slot's byte are at least those the slot's fields read. -/
theorem usedMask_slot {n e k : Nat} (he : e < n) (hk : k < 18) :
    usedMask n (18 * e + k) &&& slotMask k = slotMask k := by
  rw [usedMask, if_pos (by omega), show (18 * e + k) % 18 = k by omega, or_and_self_left]

/-- No bit is used past the required length (R162). -/
theorem usedMask_past {n i : Nat} (h1 : 121 ≤ i) (h2 : 18 * n ≤ i) : usedMask n i = 0#8 := by
  simp [usedMask, headerMask, show i ≠ 108 by omega, show i ≠ 109 by omega, show i ≠ 110 by omega,
    show ¬ i ≤ 120 by omega, show ¬ i < 18 * n by omega]

theorem patchCount_maskUnused {n : Nat} (hn : n < 8) (b : Nat → Byte) : patchCount (maskUnused n b) = patchCount b :=
  congrArg BitVec.toNat (effectCountOf_mask (b 109) hn)

/-- The slots read used bits only (R160). -/
theorem patchSlot_maskUnused (b : Nat → Byte) (e : Nat) :
    patchSlot (maskUnused (patchCount b) b) e = patchSlot b e := by
  have hn := patchCount_lt_eight b
  unfold patchSlot
  rw [patchCount_maskUnused hn]
  by_cases he : e < patchCount b
  · rw [if_pos he, if_pos he]
    have hdsp : dspOf (maskUnused (patchCount b) b 108) e = dspOf (b 108) e := dspOf_mask (b 108) hn he
    rw [hdsp]
    exact congrArg some (parseSlot_mask _ _ _ fun k => usedMask_slot he k.isLt)
  · rw [if_neg he, if_neg he]

/-- The Patch reads used bits only (R160). -/
theorem patchOf_maskUnused (b : Nat → Byte) : patchOf (maskUnused (patchCount b) b) = patchOf b := by
  have hn := patchCount_lt_eight b
  have hname : (List.range 10).map (fun j => maskUnused (patchCount b) b (111 + j))
      = (List.range 10).map fun j => b (111 + j) :=
    List.map_congr_left fun j hj => masked_full _ (usedMask_name _ (List.mem_range.1 hj))
  simp only [patchOf, patchSlot_maskUnused, hname]
  simp only [maskUnused, effectCountOf_mask _ hn, ceiOf_mask _ _ hn, tempoOf_mask _ _ hn]

/-- Bytes that agree on the used bits have the same effect count, so the same used bits, and the same Patch. -/
theorem patch_congr {b c : Nat → Byte} (h : maskUnused (patchCount b) b = maskUnused (patchCount b) c) :
    patchCount c = patchCount b ∧ patchOf c = patchOf b := by
  have hcount : patchCount c = patchCount b := by
    rw [← patchCount_maskUnused (patchCount_lt_eight b) c, ← h, patchCount_maskUnused (patchCount_lt_eight b)]
  exact ⟨hcount, by rw [← patchOf_maskUnused c, hcount, ← h, patchOf_maskUnused]⟩

/-- Settles O56: the two buffers have the same length and, masked, the same bytes. -/
theorem unusedPatchBitsAreIgnored : Obligations.UnusedPatchBitsAreIgnored := by
  intro D E s b109 hlen hb h
  rw [← patchCount_bytesOf hb] at h
  obtain ⟨hcount, hpatch⟩ := patch_congr (b := bytesOf D) (c := bytesOf E) (funext h)
  rw [exec_parsePatch, exec_parsePatch, patchResponse_eq, patchResponse_eq, hcount, hpatch, hlen]

/-- What is appended past the required length is masked away whole. -/
theorem maskUnused_append {D : List Byte} {n : Nat} (h1 : 121 ≤ D.length) (h2 : 18 * n ≤ D.length)
    (extra : List Byte) :
    maskUnused n (bytesOf (D ++ extra)) = maskUnused n (bytesOf D) := by
  funext i
  unfold maskUnused
  by_cases hi : i < D.length
  · rw [bytesOf, bytesOf, List.getD_append D extra 0 i hi]
  · rw [usedMask_past (by omega) (by omega), BitVec.and_zero, BitVec.and_zero]

/-- Settles O57: no byte past the required length has a used bit. -/
theorem patchBytesPastRequiredLengthIgnored : Obligations.PatchBytesPastRequiredLengthIgnored := by
  intro D extra s b109 hb h1 h2 hs
  rw [← patchCount_bytesOf hb] at h2
  obtain ⟨hcount, hpatch⟩ := patch_congr (maskUnused_append h1 h2 extra).symm
  have hlen : (D ++ extra).length = D.length + extra.length := List.length_append
  rw [exec_parsePatch_of_le (hlen ▸ hs) (by omega) (by omega), hpatch,
    exec_parsePatch_of_le (withinMax_of_le hs (Nat.le_add_right _ _)) h1 h2]

end Sys2Proof.Machine
end

section
/-! PROOFS. How a request can end: op 6 and 7 with ILLEGAL_OP, a request past MAX_LEN with CAPACITY_EXCEEDED, any other
with its operation's own status (R69, R170 to R173), and always with a complete or a bare response (R176). -/

namespace Sys2Proof.Machine

/-- Settles O31: Compute answers both reserved selects alike, before it looks at any other field. -/
theorem reservedOpsAreIllegal : Obligations.ReservedOpsAreIllegal := by
  intro s
  refine ⟨exec_reserved6 s, exec_reserved7 s, fun r hop => ?_⟩
  have ho : opOf r.op = .reserved6 ∨ opOf r.op = .reserved7 := hop.imp opOf_eq_iff.2 opOf_eq_iff.2
  rw [exec_decode, responseOf_reserved _ ho, raise_eq_statusOnly]

/-! ## The operation's own response -/

/-- What an operation answers where the common check passes: a status of its row in R172's table, other than the one of
that check. -/
def OwnResponse (o : Op) (x : Response) : Prop :=
  ∃ st, st ≠ .capacityExceeded ∧ mayReport o st = true ∧ x.status = some st

theorem ownResponse_commandResponse (func : Byte) (payload : List Byte) :
    OwnResponse .buildCommand (commandResponse func payload) := by
  obtain h | h := commandResponse_cases func payload <;> rw [h]
  · exact ⟨.ok, by decide, rfl, rfl⟩
  · exact ⟨.valueOutOfRange, by decide, rfl, rfl⟩

theorem ownResponse_combineResponse (low high : Byte) : OwnResponse .combine (combineResponse low high) := by
  obtain h | h := combineResponse_cases low high <;> rw [h]
  · exact ⟨.ok, by decide, rfl, rfl⟩
  · exact ⟨.valueOutOfRange, by decide, rfl, rfl⟩

theorem ownResponse_patchResponse (D : List Byte) : OwnResponse .parsePatch (patchResponse D) := by
  obtain ⟨h1, h2, h⟩ | h := patchResponse_cases D <;> rw [h]
  · exact ⟨.ok, by decide, rfl, rfl⟩
  · exact ⟨.insufficientData, by decide, rfl, rfl⟩

/-- Below 6, every select runs one operation under the common check (R69). -/
theorem responseOf_eq_capped {r : Request} (hop : r.op.toNat < 6) :
    ∃ x, OwnResponse (opOf r.op) x ∧ ∀ c, responseOf c r = capped c r.len x := by
  cases ho : opOf r.op with
  | buildCommand => exact ⟨_, ownResponse_commandResponse _ _, fun c => responseOf_buildCommand c ho⟩
  | buildUniversalInquiry =>
    exact ⟨_, ⟨.ok, by decide, rfl, rfl⟩, fun c => responseOf_buildUniversalInquiry c ho⟩
  | classify => exact ⟨_, ⟨.ok, by decide, rfl, classifyResponse_status _⟩, fun c => responseOf_classify c ho⟩
  | unpack => exact ⟨_, ⟨.ok, by decide, rfl, rfl⟩, fun c => responseOf_unpack c ho⟩
  | combine => exact ⟨_, ownResponse_combineResponse _ _, fun c => responseOf_combine c ho⟩
  | parsePatch => exact ⟨_, ownResponse_patchResponse _, fun c => responseOf_parsePatch c ho⟩
  | reserved6 => exact absurd ((opOf_reserved_iff r.op).1 (.inl ho)) (Nat.not_le.2 hop)
  | reserved7 => exact absurd ((opOf_reserved_iff r.op).1 (.inr ho)) (Nat.not_le.2 hop)

/-! ## The capacity check -/

/-- Within MAX_LEN the operation's own status is reported, which is never the common check's. -/
theorem status_ne_capacityExceeded {r : Request} {s t : State} (hop : r.op.toNat < 6) (hs : withinMax s r.len)
    (hexec : exec (decode r) s = .next t) : t.resp.status ≠ some .capacityExceeded := by
  obtain ⟨x, ⟨st, hne, -, hst⟩, hx⟩ := responseOf_eq_capped hop
  rw [eq_finished_of_exec_decode hexec, finished_resp, hx, capped_within ((exceedsMax_eq_false_iff s r.len).2 hs), hst]
  exact fun h => hne (Option.some.inj h)

/-- Settles O30: the common check comes before the operation's own response, which never has its status. -/
theorem capacityIsCheckedFirst : Obligations.CapacityIsCheckedFirst := by
  intro r s hop
  refine ⟨fun m hm hlt => ?exceeds, fun t hs => status_ne_capacityExceeded hop hs, fun t hnone => ?unbounded⟩
  case exceeds =>
    obtain ⟨x, -, hx⟩ := responseOf_eq_capped hop
    rw [exec_decode, hx, capped_exceeds ((exceedsMax_eq_true_iff s r.len).2 ⟨m, hm, hlt⟩), raise_eq_statusOnly]
  case unbounded => exact status_ne_capacityExceeded hop fun m hm => by simp [hnone] at hm

/-! ## The table of statuses -/

theorem mayReport_capacityExceeded {b : BitVec 3} : b.toNat < 6 → mayReport (opOf b) .capacityExceeded = true := by
  revert b
  decide

/-- A request completes with no status outside its operation's row of the table (R172). -/
theorem mayReport_of_responseOf {c : Config} {r : Request} {st : Status} (h : (responseOf c r).status = some st) :
    mayReport (opOf r.op) st = true := by
  by_cases hop : r.op.toNat < 6
  · obtain ⟨x, ⟨st', -, hmay, hst⟩, hx⟩ := responseOf_eq_capped hop
    rw [hx] at h
    cases he : exceedsMax c r.len with
    | false =>
      rw [capped_within he, hst] at h
      exact Option.some.inj h ▸ hmay
    | true =>
      rw [capped_exceeds he] at h
      exact Option.some.inj h ▸ mayReport_capacityExceeded hop
  · have ho := (opOf_reserved_iff r.op).2 (Nat.not_lt.1 hop)
    rw [responseOf_reserved c ho] at h
    cases h
    obtain ho | ho := ho <;> rw [ho] <;> rfl

/-- A MAX_LEN under which a status of the table can be seen. -/
def sampleConfig : Status → Config
  | .capacityExceeded => { maxLen := some 0 }
  | _ => Config.unbounded

/-- A request of an operation that completes with a status of the operation's row, under `sampleConfig`: the shortest
patch buffer for PARSE_PATCH's OK, an illegal byte for VALUE_OUT_OF_RANGE, one byte for CAPACITY_EXCEEDED, and no data
otherwise. -/
def sampleRequest (o : Op) (st : Status) : Request where
  op := opBits o
  a := if st = .valueOutOfRange then 0xFF else 0
  b := 0
  data :=
    match o, st with
    | .parsePatch, .ok => List.replicate 121 0
    | _, .capacityExceeded => [0]
    | _, _ => []

/-- Zeros alone have effect count 0, so they pass both length checks once they pass the first (R137, R139). -/
theorem patchResponse_zeros_status {n : Nat} (h : 121 ≤ n) :
    (patchResponse (List.replicate n 0)).status = some .ok := by
  have hcount : patchCount (bytesOf (List.replicate n 0)) = 0 := by
    rw [patchCount_bytesOf (b109 := 0) (List.getElem?_replicate_of_lt (by omega))]
    rfl
  rw [patchResponse_eq, if_pos ⟨by simpa using h, by rw [hcount]; exact Nat.zero_le _⟩]
  rfl

/-- Every entry of the table is reached (R172). -/
theorem responseOf_sample_status {o : Op} {st : Status} (h : mayReport o st = true) :
    (responseOf (sampleConfig st) (sampleRequest o st)).status = some st := by
  cases st with
  | ok =>
    cases o with
    | parsePatch =>
      rw [responseOf_parsePatch _ rfl, capped_within rfl]
      exact patchResponse_zeros_status (Nat.le_refl 121)
    | reserved6 | reserved7 => cases h
    | _ => rfl
  | insufficientData =>
    cases o with
    | parsePatch => rfl
    | _ => cases h
  | valueOutOfRange =>
    cases o with
    | buildCommand | combine => rfl
    | _ => cases h
  | illegalOp =>
    cases o with
    | reserved6 | reserved7 => rfl
    | _ => cases h
  | capacityExceeded =>
    cases o with
    | reserved6 | reserved7 => cases h
    | _ => rfl

/-- Settles O27: the sample request reaches an entry of the table, and no request leaves it. -/
theorem statusesPerOperation : Obligations.StatusesPerOperation := by
  intro o st
  constructor
  · intro h
    exact ⟨sampleRequest o st, { State.reset with config := sampleConfig st }, _, opOf_opBits o, exec_decode _ _,
      responseOf_sample_status h⟩
  · rintro ⟨r, s, t, rfl, hexec, hst⟩
    rw [eq_finished_of_exec_decode hexec] at hst
    exact mayReport_of_responseOf hst

/-! ## Precise failures -/

/-- Every instruction, well-formed or not, has the effect of the op row of its encoding. -/
theorem exec_decodeOp_encode (i : Instr) (s : State) : exec (decodeOp (encode i)) s = exec i s := by
  cases i with
  | buildUniversalInquiry len => exact congrArg (fun n => exec (.buildUniversalInquiry n) s) List.length_replicate
  | combine low high len => exact congrArg (fun n => exec (.combine low high n) s) List.length_replicate
  | _ => rfl

/-- So every instruction completes with the response of its encoding. -/
theorem exec_eq_responseOf_encode (i : Instr) (s : State) :
    exec i s = .next (finished s (responseOf s.config (encode i))) := by
  rw [← exec_decodeOp_encode, exec_decodeOp]

theorem Answer.status_ok {r : Request} {x : Response} (h : Answer r x) : x.status = some .ok := by
  cases h <;> rfl

/-- Settles O26: the response is that of the instruction's encoding, and an answer has the fields of its operation. -/
theorem failuresArePrecise : Obligations.FailuresArePrecise := by
  intro i s t hexec
  rw [exec_eq_responseOf_encode] at hexec
  cases hexec
  obtain hfail | ⟨-, hanswer⟩ := responseOf_failure_or_answer s.config (encode i)
  · exact .inr hfail
  · exact .inl ⟨hanswer.status_ok, fun f => (hanswer.readsAsListed f).2⟩

end Sys2Proof.Machine
end

section
/-! PROOFS. What can stop a step: the host's reads (R191), and in a state of a run nothing else; a refusal never
(R165). -/

namespace Sys2Proof.Machine

/-! ## Going on -/

theorem step_of_reset {s : State} (hreset : (pins s).reset = true) (hreads : (pins s).reads = []) :
    step s = .next (resetBlock (advance s)) := by
  simp [step, resetStep, hreset, hreads]

theorem stepSafe_idle {s : State} (hp : s.phase = .idle) (hreset : (pins s).reset = false)
    (hreads : (pins s).reads = []) : StepSafe s := by
  obtain ⟨haccept, hwait⟩ := acceptLatchesPresentedRequest s hp hreset hreads
  cases hr : (pins s).request with
  | some r => exact ⟨_, haccept r hr⟩
  | none => exact ⟨_, hwait hr⟩

/-- In BUSY a step goes on because the request latch holds a request. -/
theorem stepSafe_busy {s : State} {r : Request} (hp : s.phase = .busy) (hreq : s.req = some r)
    (hreset : (pins s).reset = false) (hreads : (pins s).reads = []) : StepSafe s := by
  cases hstall : (pins s).stall with
  | true => exact ⟨_, step_busy_stalled hp hreset hreads hstall⟩
  | false => exact ⟨_, (stepRunsLatchedInstruction s r hp hreq hreset hstall hreads).trans (exec_decode r _)⟩

theorem stepSafe_done {s : State} (hp : s.phase = .done) (hreset : (pins s).reset = false)
    (hreads : (pins s).reads = []) : StepSafe s := by
  obtain ⟨hdeliver, hwait⟩ := deliverNeedsAcknowledge s hp hreset hreads
  cases hack : (pins s).respReady with
  | true => exact ⟨_, hdeliver hack⟩
  | false => exact ⟨_, hwait hack⟩

theorem stepSafe_of_no_reads {s : State} (hinv : Inv s) (hreads : (pins s).reads = []) : StepSafe s := by
  obtain ⟨hconsistent, -⟩ := hinv
  cases hreset : (pins s).reset with
  | true => exact ⟨_, step_of_reset hreset hreads⟩
  | false =>
    cases hp : s.phase with
    | idle => exact stepSafe_idle hp hreset hreads
    | busy =>
      have hlatch : s.req.isSome = true := by simpa [Consistent, hp] using hconsistent
      obtain ⟨r, hreq⟩ := Option.isSome_iff_exists.1 hlatch
      exact stepSafe_busy hp hreq hreset hreads
    | done => exact stepSafe_done hp hreset hreads

/-! ## No refusal -/

theorem exec_ne_refused (i : Instr) (s : State) (x : Refusal) : exec i s ≠ .refused x := by
  rw [exec_eq_responseOf_encode]
  nofun

theorem phaseStep_ne_refused (p : Pins) (t : State) (x : Refusal) : phaseStep p t ≠ .refused x := by
  cases hp : t.phase with
  | idle =>
    rw [phaseStep_idle hp, idleStep]
    split <;> nofun
  | busy =>
    rw [phaseStep_busy hp, busyStep]
    split
    · nofun
    · split
      · exact exec_ne_refused _ t x
      · nofun
  | done =>
    rw [phaseStep_done hp, doneStep]
    split <;> nofun

/-- With reset or a faulting read a step ends before its phase's step, and neither is a refusal. -/
theorem step_ne_refused (s : State) (x : Refusal) : step s ≠ .refused x := by
  unfold step
  split
  · unfold resetStep
    split <;> nofun
  · unfold runStep
    split
    · nofun
    · exact phaseStep_ne_refused _ _ x

/-- Settles O12: with Inv the only fault left is a read's, and no step has a refusal to answer. -/
theorem onlyHostReadsStopTheMachine : Obligations.OnlyHostReadsStopTheMachine :=
  ⟨fun _ => stepSafe_of_no_reads, step_ne_refused⟩

end Sys2Proof.Machine
end

section
/-! PROOFS. A step with reset (R185), the transaction it cuts issued again (R186), and what every step keeps: MAX_LEN
and the record of a run (R189, R198). -/

namespace Sys2Proof.Machine

/-- Settles O8: a reset step that reads nothing is the reset of the block, whatever its phase and its other pins. -/
theorem resetWorksInEveryPhase : Obligations.ResetWorksInEveryPhase :=
  fun _ hreset hreads => step_of_reset hreset hreads

/-- The reset step of an environment that asserts reset and does nothing else. -/
theorem step_reset_pin {s : State} {rest : List Pins} (hs : s.script = { Pins.quiet with reset := true } :: rest) :
    step s = .next (resetBlock (advance s)) := by
  have hpins := pins_of_script hs
  exact step_of_reset (by rw [hpins]) (by rw [hpins]; rfl)

/-- Settles O15: the reset step leaves an IDLE block with nothing delivered, whatever the transaction it cuts had come
to, and from there the three steps of a transaction answer r under the same MAX_LEN. -/
theorem reissueAfterResetGivesSameResponse : Obligations.ReissueAfterResetGivesSameResponse := by
  intro s r rest _ _ hs
  have hreset := step_reset_pin hs
  obtain ⟨t, hreissue, hphase, -, -, -, hdelivered⟩ :=
    run_transaction (s := resetBlock (advance s)) (r := r) (rest := rest) rfl (by simp [hs])
  have hrun : core.run 4 s = .next t := (run_succ hreset).trans hreissue
  exact ⟨_, t, run_succ hreset, rfl, rfl, hrun, hphase, hdelivered⟩

/-- Settles O4, by what a step can do: the host's reads append to the readings, Deliver to the delivered responses, and
nothing else touches either, or MAX_LEN. -/
theorem stepKeepsConfigAndHistory : Obligations.StepKeepsConfigAndHistory := by
  intro s t hstep
  obtain ⟨-, -, rfl⟩ | ⟨-, vs, u, rfl, hcase⟩ := step_cases hstep
  · exact ⟨rfl, rfl, List.prefix_rfl, List.prefix_rfl⟩
  have hreadings : s.readings <+: s.readings ++ vs := List.prefix_append _ _
  obtain ⟨-, r, -, rfl⟩ | ⟨-, -, rfl⟩ | ⟨-, -, rfl⟩ | ⟨-, -, r, -, hexec⟩ | ⟨-, -, rfl⟩ | ⟨-, -, rfl⟩ := hcase
  · -- Accept
    exact ⟨rfl, rfl, List.prefix_rfl, hreadings⟩
  · -- IDLE without a request
    exact ⟨rfl, rfl, List.prefix_rfl, hreadings⟩
  · -- BUSY, stalled
    exact ⟨rfl, rfl, List.prefix_rfl, hreadings⟩
  · -- Compute
    rw [eq_finished_of_exec_decode hexec]
    exact ⟨rfl, rfl, List.prefix_rfl, hreadings⟩
  · -- Deliver
    exact ⟨rfl, rfl, List.prefix_append _ _, hreadings⟩
  · -- DONE without an acknowledge
    exact ⟨rfl, rfl, List.prefix_rfl, hreadings⟩

end Sys2Proof.Machine
end
